-- ==== Sys2Proof/Word.lean ====
section
/-! DEFINITION. The word types of BBPE: 32-bit bus words and 8-bit patterns (spec/00_scope.md R9), and the level of a
digital line or a one-bit flag. -/

namespace Sys2Proof

/-- A host-visible register, a bus value or a command word (R8, `REG_WIDTH` = 32). Bit 0 is the least significant. -/
abbrev Word := BitVec 32

/-- A pattern byte: eight segment bits in the packing of R83. -/
abbrev Byte := BitVec 8

/-- A line level or a one-bit flag: `true` is 1, `false` is 0 (R10, R25). -/
abbrev Level := Bool

end Sys2Proof
end

