-- ==== Sys2Proof/Syntax.lean ====
section
/-! DEFINITION. The commands of BBPE, one constructor per row of spec/opcode_table.json (spec/30_encoding.md R73, R85). -/

namespace Sys2Proof

/-- A command with the operand fields of its format (R72): X8 for SAMPLE and PATFOR, X16 for DISPLAY, X1 for SETDARK. -/
inductive Instr where
  /-- `SAMPLE ch`: read one ADC channel (R100). -/
  | sample (ch : Byte)
  /-- `PATFOR n`: look up a digit pattern (R120). -/
  | patfor (n : Byte)
  /-- `DISPLAY upat, tpat`: accept one two-digit frame (R130). -/
  | display (upat tpat : Byte)
  /-- `SETDARK d`: write the Dark-State Flag (R160). -/
  | setdark (d : Level)
  deriving DecidableEq, Repr, Inhabited

end Sys2Proof
end

