-- ==== Sys2Proof/WellFormed.lean ====
section
/-! DEFINITION. Which commands are legal (spec/30_encoding.md R76, spec/45_host_sequences.md R178). The operand types
already hold every value the encoding admits; this is the range check on top. An ill-formed command is still a command: it
has an encoding and, when run, raises E_OPERAND_RANGE. -/

namespace Sys2Proof

/-- CH ∈ 0..7 and N ∈ 0..16; DISPLAY and SETDARK take every operand value (R76). -/
def Instr.wellFormed : Instr → Bool
  | .sample ch => ch.toNat ≤ 7
  | .patfor n => n.toNat ≤ 16
  | .display _ _ => true
  | .setdark _ => true

end Sys2Proof
end

