-- ==== Sys2Proof/Decode.lean ====
section
/-! DEFINITION. Decoding a command word (spec/30_encoding.md R71 to R74), total on every 32-bit word, and the encoder (R79,
R85). A word that is no command is rejected by the name of the fault the bus write then raises. -/

namespace Sys2Proof

/-- Why a word is no command (R74, R77). -/
inductive DecodeError where
  /-- OP is not 1, 2, 3 or 4: E_ILLEGAL_OP. -/
  | illegalOp
  /-- A legal OP with a nonzero reserved bit: E_RESERVED_BITS. -/
  | reservedBits
  deriving DecidableEq, Repr

/-- OP, bits 31:28 (R71). -/
def opField (w : Word) : BitVec 4 := w.extractLsb' 28 4

/-- RSV, bits 27:16 (R71). -/
def rsvField (w : Word) : BitVec 12 := w.extractLsb' 16 12

/-- Bits 15:8 of the operand area: RSV8 of X8, B of X16 (R72). -/
def highByte (w : Word) : Byte := w.extractLsb' 8 8

/-- Bits 7:0 of the operand area: A (R72). -/
def lowByte (w : Word) : Byte := w.extractLsb' 0 8

/-- RSV15, bits 15:1 of the operand area of X1 (R72). -/
def rsv15Field (w : Word) : BitVec 15 := w.extractLsb' 1 15

/-- Bit 0: D of X1 (R72). -/
def bitZero (w : Word) : Level := w.getLsbD 0

/-- Decoding with R74's checks in R74's order: the OP, then bits 27:16, then the format's own reserved bits. The range checks
on CH and N are the commands' own (R76). -/
def decode (w : Word) : Except DecodeError Instr :=
  let op := opField w
  if op ≠ 1#4 ∧ op ≠ 2#4 ∧ op ≠ 3#4 ∧ op ≠ 4#4 then .error .illegalOp
  else if rsvField w ≠ 0#12 then .error .reservedBits
  else if (op = 1#4 ∨ op = 2#4) ∧ highByte w ≠ 0#8 then .error .reservedBits
  else if op = 4#4 ∧ rsv15Field w ≠ 0#15 then .error .reservedBits
  else if op = 1#4 then .ok (.sample (lowByte w))
  else if op = 2#4 then .ok (.patfor (lowByte w))
  else if op = 3#4 then .ok (.display (lowByte w) (highByte w))
  else .ok (.setdark (bitZero w))

/-- The word of a command (R79's table, R85): OP in bits 31:28, every reserved bit 0, the operands in R72's places. -/
def encode : Instr → Word
  | .sample ch => 0x1#4 ++ 0#12 ++ 0#8 ++ ch
  | .patfor n => 0x2#4 ++ 0#12 ++ 0#8 ++ n
  | .display upat tpat => 0x3#4 ++ 0#12 ++ tpat ++ upat
  | .setdark d => 0x4#4 ++ 0#12 ++ 0#15 ++ BitVec.ofBool d

/-- What the decoder reads from a table row's bits: the one 32-bit word of R70, the bits above `nbits` zero. A word has one
length and is one bus value, so no byte order enters (R57, R70). -/
def decodeTableWord (nbits w : Nat) : Option Instr :=
  match decode (BitVec.ofNat 32 (w % 2 ^ nbits)) with
  | .ok i => some i
  | .error _ => none

end Sys2Proof
end

