-- ==== Sys2Proof/Config.lean ====
section
/-! DEFINITION. What an implementation or its platform fixes (spec/00_scope.md R8, the OPEN parameters), what the outside
world can do to the machine (R20, R179), and the free values the spec leaves open. An `opaque` constant has no body: no
proof can see what it is, so a claim about the machine holds whatever it is. -/

namespace Sys2Proof

/-! ## Lines -/

/-- The six output lines of R23. -/
inductive OutLine where
  | adcCs | adcClk | adcDin | srData | srShclk | srLatch
  deriving DecidableEq, Repr, Inhabited

/-- The one input line of R23. -/
inductive InLine where
  | adcDout
  deriving DecidableEq, Repr, Inhabited

/-! ## What the outside world can do -/

/-- One host access to the register block: `BusRead(off)`, `BusWrite(off, v)` (R10), with the access width in bits, since
BBPE gives a meaning to 32-bit accesses only (R52). -/
inductive BusOp where
  | read (off width : Nat)
  | write (off width : Nat) (data : Word)
  deriving DecidableEq, Repr, Inhabited

/-- The step an agent takes (R20, R62): a host access, a host-asserted reset with the platform's `LINES_OK` at that reset
(R230, R233), a turn of the timing sequencer, or a step of TIME. -/
inductive Action where
  | host (op : BusOp)
  | reset (linesOk : BitVec 7)
  | seq
  | time
  deriving DecidableEq, Repr, Inhabited

/-! ## Parameters -/

/-- When the Dark-State Flag is read for a frame's bit 4 (R134). -/
inductive DarkSamplePoint where
  | accept
  | step
  deriving DecidableEq, Repr, Inhabited

/-- `DARK_SAMPLE_POINT`, OPEN (D14, U5; log 7). -/
opaque Config.darkSamplePoint : DarkSamplePoint

/-- What `BIT_DELAY` is above its least value (D13, U4; log 5). -/
opaque Config.bitDelayExtra : Nat

/-- `BIT_DELAY`, OPEN, an integer number of ms, at least 1 (R8, R143). -/
def Config.bitDelay : Nat := Config.bitDelayExtra + 1

/-- What `FQ_DEPTH` is above its least value (D11, U7; log 6). -/
opaque Config.fqDepthExtra : Fin 15

/-- `FQ_DEPTH`, a parameter in 1..15 (R8, R28). The spec's decision value is 1; the model holds for each of the fifteen. -/
def Config.fqDepth : Nat := Config.fqDepthExtra.val + 1

/-- The fourteen entries of `PATTERN_TABLE` that the source does not give, OPEN (D15, U6; log 8). The arguments 4, 7 and 16
are never used. -/
opaque Config.openPattern : Fin 17 → Byte

/-- `BBPE_BASE`, OPEN, the platform's (R50, R59, U16; log 17). -/
opaque Config.bbpeBase : Nat

/-- `LIGHT_CHANNEL`, OPEN, in 0..7, the reference host's (R8, R174; log 21). -/
opaque Config.lightChannel : Fin 8

/-! ## Free values -/

/-- The level ADC_DOUT has at a read, where ENV has none lined up: a free draw (R109, U1; log 2). -/
opaque Config.freeDout : Nat → Level

/-- Which agent steps next and what it does, where nothing is lined up: any interleaving (R62, D30; log 1). -/
opaque Config.freeAction : Nat → Action

/-- The level of an output line that is unavailable at a reset (R43, R233, U8; log 4). -/
opaque Config.freeLevel : Nat → OutLine → Level

end Sys2Proof
end

