-- ==== Sys2Proof/Machine/State.lean ====
section
/-! DEFINITION. The state of BBPE (spec/10_state.md), all of it plain data, the reasons a step can stop, and the state after
reset (R43). -/

namespace Sys2Proof.Machine

/-- The driven levels of the six output lines, `LEVEL[L]` (R25). ADC_DOUT has no BBPE state. -/
structure Levels where
  adcCs : Level
  adcClk : Level
  adcDin : Level
  srData : Level
  srShclk : Level
  srLatch : Level
  deriving DecidableEq, Repr, Inhabited

/-- One event of the line trace (R40): `W(L, v)` of a `LineWrite`, `R(ADC_DOUT, v)` of a `LineRead`. -/
inductive LineEvent where
  | W (line : OutLine) (level : Level)
  | R (line : InLine) (level : Level)
  deriving DecidableEq, Repr, Inhabited

/-- A frame record `{U, T}` of the queue (R33): the units and the tens pattern. -/
structure Frame where
  u : Byte
  t : Byte
  deriving DecidableEq, Repr, Inhabited

/-- The cause codes of R200 by their names. -/
inductive Cause where
  /-- 1: OP is not a command's. -/
  | illegalOp
  /-- 2: a reserved bit of a legal OP is 1. -/
  | reservedBits
  /-- 3: CH > 7 or N > 16. -/
  | operandRange
  /-- 4: a frame is active and the frame queue is full. -/
  | frameOverrun
  /-- 5: a required line was unavailable at reset. -/
  | config
  deriving DecidableEq, Repr, Inhabited

/-- What a host read got back (R179): the offset read and the value returned. -/
structure Reply where
  off : Nat
  value : Word
  deriving DecidableEq, Repr, Inhabited

/-- The model's own fields, none of them BBPE's: what the outside world has lined up, the counter at which free values are
drawn, and what the host has read (logs 1, 2, 11, 16). -/
structure Env where
  /-- The coming steps, soonest first. When it is empty the next step is a free value. -/
  inputs : List Action
  /-- The levels of the coming `LineRead`s of ADC_DOUT, soonest first. When it is empty the level is a free value. -/
  dout : List Level
  /-- How many free values have been drawn. -/
  draws : Nat
  /-- What the host's reads returned, oldest first. -/
  replies : List Reply
  deriving DecidableEq, Repr, Inhabited

/-- The machine's state: R25 to R37 and R40, field by field, and the model's `env`. STATUS is a view (R28), CMD has no storage
(R31) and PATTERN_TABLE is fixed for the machine's life (`patternTable`, R38), so none of the three is a field. -/
@[ext]
structure State where
  /-- `LEVEL[L]` (R25). -/
  levels : Levels
  /-- The Dark-State Flag DARK (R26). -/
  dark : Level
  /-- RESULT (R27). -/
  result : Word
  /-- FAULTED (R37). -/
  faulted : Level
  /-- CAUSE (R29). -/
  cause : Word
  /-- FINFO (R30). -/
  finfo : Word
  /-- `SR_ACTIVE` (R32). -/
  srActive : Level
  /-- `SR_U` (R32). -/
  srU : Byte
  /-- `SR_T` (R32). -/
  srT : Byte
  /-- `SR_CUR` (R32). -/
  srCur : BitVec 4
  /-- `SR_DUE` (R32). -/
  srDue : Nat
  /-- FQ, oldest frame first (R33). -/
  fq : List Frame
  /-- `NOW` (R36). -/
  now : Nat
  /-- The line trace, oldest event first (R40). -/
  trace : List LineEvent
  /-- The model's own fields. -/
  env : Env
  deriving DecidableEq, Repr, Inhabited

/-- Why the machine stops with a fault. BBPE's own faults (R200) are no stops: they are taken as next states. -/
inductive Fault where
  /-- Raised by a bus access whose offset is outside 0x00 to 0x1F: "Offsets outside that window are not BBPE's" (R51). Safe:
  the model stops where the platform may go on. -/
  | outsideWindow (off : Nat)
  deriving DecidableEq, Repr

/-- Why the machine refuses a step. -/
inductive Refusal where
  /-- Raised by an arm of exec for a command with no meaning yet. No arm raises it. Safe. -/
  | notModelled (mnemonic : String)
  /-- Raised by a bus access in the window that is not 32 bits wide: BBPE gives it no meaning, and "A model refuses such an
  access" (R52, U9). Safe. -/
  | accessWidth (width : Nat)
  /-- Raised by a 32-bit bus access in the window at an offset that is no multiple of 4 (R52, U9). Safe. -/
  | misalignedOffset (off : Nat)
  deriving DecidableEq, Repr

/-- The line levels after reset (R43, R231): the ADC deselected, every other output 0. -/
def Levels.reset : Levels :=
  { adcCs := true, adcClk := false, adcDin := false, srData := false, srShclk := false, srLatch := false }

/-- Nothing lined up, nothing drawn, nothing read: the model's own fields at the start (DESIGN CHOICE, log 16). -/
def Env.start : Env := { inputs := [], dout := [], draws := 0, replies := [] }

/-- The state after a reset with every line available, `LINES_OK` = 0x7F (R43, R230). A reset with a missing line is the
reset step with another mask (log 3). -/
def State.reset : State :=
  { levels := Levels.reset, dark := false, result := 0#32, faulted := false, cause := 0#32, finfo := 0#32,
    srActive := false, srU := 0#8, srT := 0#8, srCur := 0#4, srDue := 0, fq := [], now := 0, trace := [],
    env := Env.start }

end Sys2Proof.Machine
end

