-- ==== Sys2Proof/Machine/Ops.lean ====
section
/-! DEFINITION. The named operations over the lines, the registers, the sequencer and the fault state: spec/00_scope.md R10's
primitives, the fault path (spec/60_exceptions.md R205), its only way back, reset (spec/70_reset_and_hazards.md R230), and
the shift engine's own updates (spec/43_display_driver.md R132, R135, R137). -/

namespace Sys2Proof.Machine

/-! ## Lines -/

/-- The line ids of R23's table; `LINES_OK` and E_CONFIG's FINFO number the lines by them. -/
def lineId : OutLine → Nat
  | .adcCs => 0
  | .adcClk => 1
  | .adcDin => 2
  | .srData => 4
  | .srShclk => 5
  | .srLatch => 6

/-- ADC_DOUT has line id 3 (R23). -/
def inLineId : InLine → Nat
  | .adcDout => 3

/-- The lines the ADC sampler drives, ids 0 to 2 (R24). The other three are the display driver's, ids 4 to 6. -/
def isAdcLine : OutLine → Bool
  | .adcCs | .adcClk | .adcDin => true
  | .srData | .srShclk | .srLatch => false

/-- `LEVEL[L]` (R25). -/
def levelOf (l : OutLine) (lv : Levels) : Level :=
  match l with
  | .adcCs => lv.adcCs
  | .adcClk => lv.adcClk
  | .adcDin => lv.adcDin
  | .srData => lv.srData
  | .srShclk => lv.srShclk
  | .srLatch => lv.srLatch

/-- `LEVEL[L] <- v` (R25). -/
def withLevel (l : OutLine) (v : Level) (lv : Levels) : Levels :=
  match l with
  | .adcCs => { lv with adcCs := v }
  | .adcClk => { lv with adcClk := v }
  | .adcDin => { lv with adcDin := v }
  | .srData => { lv with srData := v }
  | .srShclk => { lv with srShclk := v }
  | .srLatch => { lv with srLatch := v }

/-- `LineWrite(L, v)`: drives the line and appends `W(L, v)`, also where the level stays the same (R10, R25). -/
def lineWrite (l : OutLine) (v : Level) (s : State) : State :=
  { s with levels := withLevel l v s.levels, trace := s.trace ++ [.W l v] }

/-- One clock pulse: level 1, then level 0, in the same step (R12, R145). -/
def pulse (l : OutLine) (s : State) : State :=
  lineWrite l false (lineWrite l true s)

/-- The level ADC_DOUT has at the next `LineRead`: what ENV has lined up, else a free draw (R109, U1; log 2). -/
def nextDout (s : State) : Level :=
  match s.env.dout with
  | b :: _ => b
  | [] => Config.freeDout s.env.draws

/-- ENV after one read of ADC_DOUT: the level used is gone. -/
def consumeDout (s : State) : State :=
  match s.env.dout with
  | _ :: rest => { s with env := { s.env with dout := rest } }
  | [] => { s with env := { s.env with draws := s.env.draws + 1 } }

/-- The state after `LineRead(ADC_DOUT)`, which returns `nextDout s` and appends `R(ADC_DOUT, v)` (R10). -/
def lineRead (s : State) : State :=
  { consumeDout s with trace := s.trace ++ [.R .adcDout (nextDout s)] }

/-- The levels the next `n` reads of ADC_DOUT return, first read first. -/
def doutDraws : Nat → State → List Level
  | 0, _ => []
  | n + 1, s => nextDout s :: doutDraws n (consumeDout s)

/-- ENV after `n` reads of ADC_DOUT. -/
def consumeDouts : Nat → State → State
  | 0, s => s
  | n + 1, s => consumeDouts n (consumeDout s)

/-! ## Registers -/

/-- RESULT <- v (R27). -/
def writeResult (v : Word) (s : State) : State :=
  { s with result := v }

/-- DARK <- d (R26, R160). -/
def writeDark (d : Level) (s : State) : State :=
  { s with dark := d }

/-! ## The fault path and reset -/

/-- The code of a cause, CAUSE[3:0] (R200). -/
def causeCode : Cause → BitVec 4
  | .illegalOp => 1#4
  | .reservedBits => 2#4
  | .operandRange => 3#4
  | .frameOverrun => 4#4
  | .config => 5#4

/-- `raise Fault(cause, info)` (R205): FAULTED, CAUSE and FINFO are written, nothing else is. Nothing is saved and nothing is
jumped to (R206). -/
def raiseFault (c : Cause) (info : Word) (s : State) : State :=
  { s with faulted := true, cause := (causeCode c).zeroExtend 32, finfo := info }

/-- Line id `i` is available under the mask (R233). -/
def lineOk (linesOk : BitVec 7) (i : Nat) : Bool := linesOk.getLsbD i

/-- The level a line has after a reset: its reset level where it is available (R231), a free value where it is not (R43, U8;
log 4). -/
def levelAfterReset (linesOk : BitVec 7) (draw : Nat) (l : OutLine) : Level :=
  if lineOk linesOk (lineId l) then levelOf l Levels.reset else Config.freeLevel draw l

/-- The six levels after a reset. -/
def levelsAfterReset (linesOk : BitVec 7) (draw : Nat) : Levels :=
  { adcCs := levelAfterReset linesOk draw .adcCs
    adcClk := levelAfterReset linesOk draw .adcClk
    adcDin := levelAfterReset linesOk draw .adcDin
    srData := levelAfterReset linesOk draw .srData
    srShclk := levelAfterReset linesOk draw .srShclk
    srLatch := levelAfterReset linesOk draw .srLatch }

/-- The mask of missing lines, `(~LINES_OK) & 0x7F`, as E_CONFIG's FINFO (R30, R233). -/
def missingLines (linesOk : BitVec 7) : Word := (~~~linesOk).zeroExtend 32

/-- Reset with the platform's `LINES_OK` (R230): every state element at its reset value, then the line check of R233. It is
also the only way out of FAULTED (R208). The trace starts empty, so the drives of R231 are no events. What the outside world
has lined up is not BBPE's and stays (log 16). -/
def resetMachine (linesOk : BitVec 7) (s : State) : State :=
  if linesOk = 0x7F#7 then { State.reset with env := s.env }
  else
    raiseFault .config (missingLines linesOk)
      { State.reset with
        levels := levelsAfterReset linesOk s.env.draws
        env := { s.env with draws := s.env.draws + 1 } }

/-! ## The sequencer and the shift engine -/

/-- An SR_STEP is armed (R35). -/
def armed (s : State) : Bool := s.srActive && !s.faulted

/-- SR_STEP is enabled: SR_ACTIVE = 1, FAULTED = 0 and NOW ≥ SR_DUE (R221). -/
def srEnabled (s : State) : Bool := armed s && decide (s.srDue ≤ s.now)

/-- `Arm(SR_STEP, d)`: SR_DUE <- NOW + d (R220). -/
def arm (d : Nat) (s : State) : State :=
  { s with srDue := s.now + d }

/-- `StartFrame(u, t)` (R132). -/
def startFrame (u t : Byte) (s : State) : State :=
  arm Config.bitDelay { s with srActive := true, srU := u, srT := t, srCur := 0#4 }

/-- `FQ.push_back({U: u, T: t})` (R131, R135). -/
def pushFrame (u t : Byte) (s : State) : State :=
  { s with fq := s.fq ++ [{ u := u, t := t }] }

/-- The cursor moves on and the next SR_STEP is armed (R137, k < 15). -/
def advanceCursor (s : State) : State :=
  arm Config.bitDelay { s with srCur := s.srCur + 1#4 }

/-- After a frame's latch pulse: the oldest queued frame starts, or the engine is idle (R137, k = 15). -/
def nextFrame (s : State) : State :=
  match s.fq with
  | f :: rest => startFrame f.u f.t { s with fq := rest }
  | [] => { s with srActive := false, srCur := 0#4 }

end Sys2Proof.Machine
end

