-- ==== Sys2Proof/Machine/Operands.lean ====
section
/-! DEFINITION. Operand forms and wire formats: the ADC command byte (spec/30_encoding.md R81), the serial result (R82), the
pattern index, the frame word (R84), and the Dark override (spec/43_display_driver.md R133, R134). -/

namespace Sys2Proof.Machine

/-- `c[7:0] <- ((0x18 | CH) << 3)[7:0]` (R81). -/
def adcCommandByte (ch : Byte) : Byte := (0x18#8 ||| ch) <<< 3

/-- The five bits sent, c[7], c[6], c[5], c[4], c[3], in that order (R81, R104). c[2:0] are never sent. -/
def adcCommandBits (ch : Byte) : List Level :=
  let c := adcCommandByte ch
  [c.getLsbD 7, c.getLsbD 6, c.getLsbD 5, c.getLsbD 4, c.getLsbD 3]

/-- `r <- ((r << 1) | b)[9:0]`: one received bit becomes the next lower bit of the result (R100, R106). -/
def shiftIn (r : BitVec 10) (b : Level) : BitVec 10 :=
  (r <<< 1) ||| (BitVec.ofBool b).zeroExtend 10

/-- The value of the ten received bits, most significant first, from r = 0 (R82, R106). -/
def valueOfBits (bits : List Level) : BitVec 10 :=
  bits.foldl shiftIn 0#10

/-- The index into PATTERN_TABLE, where N ∈ 0..16 (R76, R120); none where N is larger. -/
def patternIndex (n : Byte) : Option (Fin 17) :=
  if h : n.toNat < 17 then some ⟨n.toNat, h⟩ else none

/-- `PATTERN_TABLE` (R38, R121): entries 4, 7 and 16 are the source's, the other fourteen are OPEN. It never changes (R122). -/
def patternTable (n : Fin 17) : Byte :=
  match n.val with
  | 4 => 0x2D#8
  | 7 => 0x23#8
  | 16 => 0x00#8
  | _ => Config.openPattern n

/-- The frame word F = {T, U}, whose bit k is sent at step k (R84). -/
def frameWord (u t : Byte) : BitVec 16 := t ++ u

/-- The Dark override: bit 4 is forced to 1 when DARK = 1, every other bit stays (R133). -/
def overrideBit4 (dark : Level) (u : Byte) : Byte :=
  if dark then u ||| 0x10#8 else u

/-- The units pattern a DISPLAY accepts: with the override in `ACCEPT` mode, as given in `STEP` mode (R131, R134). -/
def acceptUnits (p : DarkSamplePoint) (dark : Level) (u : Byte) : Byte :=
  match p with
  | .accept => overrideBit4 dark u
  | .step => u

/-- Bit k of the frame as SR_STEP sends it: U[k] for k < 8, else T[k−8], and at k = 4 in `STEP` mode or'ed with DARK (R137). -/
def sentBit (p : DarkSamplePoint) (dark : Level) (u t : Byte) (k : Nat) : Level :=
  let bit := if k < 8 then u.getLsbD k else t.getLsbD (k - 8)
  match p with
  | .accept => bit
  | .step => if k = 4 then bit || dark else bit

end Sys2Proof.Machine
end

