-- ==== Sys2Proof/Machine/Flags.lean ====
section
/-! DEFINITION. The status elements. BBPE has no condition codes (spec/10_state.md R41): its one-bit elements are DARK, VALID,
SR_BUSY and FAULTED. STATUS is a view of the state (R28); RESULT carries VALID in bit 31 (R27). -/

namespace Sys2Proof.Machine

/-- The word SAMPLE and PATFOR leave in RESULT: VALID = 1 and the value (R27, R107, R123). -/
def validResult (v : BitVec 10) : Word := 0x80000000#32 ||| v.zeroExtend 32

/-- QCOUNT, the number of queued frames in 4 bits (R28). -/
def qcount (s : State) : BitVec 4 := BitVec.ofNat 4 s.fq.length

/-- STATUS (R28): SR_BUSY, DARK, FAULTED, 0, QCOUNT in 7:4, SR_CUR in 11:8, zeros above. -/
def statusView (s : State) : Word :=
  0#20 ++ s.srCur ++ qcount s ++ 0#1 ++ BitVec.ofBool s.faulted ++ BitVec.ofBool s.dark ++ BitVec.ofBool s.srActive

end Sys2Proof.Machine
end

