-- ==== Sys2Proof/Machine/Adc.lean ====
section
/-! DEFINITION. The ADC sampler: SAMPLE (spec/41_adc_sampler.md). -/

namespace Sys2Proof.Machine

/-- Source step 1: chip select high, clock low, chip select low (R100, R103). -/
def adcSelect (s : State) : State :=
  lineWrite .adcCs false (lineWrite .adcClk false (lineWrite .adcCs true s))

/-- One command bit of source step 3: present it on data-in, then pulse the clock (R100, R104). -/
def adcSendBit (s : State) (b : Level) : State :=
  pulse .adcClk (lineWrite .adcDin b s)

/-- Source step 3: the command bits in their order (R100). -/
def adcSendBits (bits : List Level) (s : State) : State :=
  bits.foldl adcSendBit s

/-- Source step 5: `n` result bits, each pulsed for and then read, each shifted into `r` (R100, R106). The value is the
accumulator after the last of them. -/
def adcReadBits : Nat → BitVec 10 → State → BitVec 10 × State
  | 0, r, s => (r, s)
  | n + 1, r, s =>
    let p := pulse .adcClk s
    adcReadBits n (shiftIn r (nextDout p)) (lineRead p)

/-- The conversation up to the first result bit: source steps 1 to 4, the last of them a clock pulse with data-in left as it
is (R100, R105). -/
def adcCommandPhase (ch : Byte) (s : State) : State :=
  pulse .adcClk (adcSendBits (adcCommandBits ch) (adcSelect s))

/-- One whole conversation: source steps 1 to 7 (R100). -/
def adcConversation (ch : Byte) (s : State) : State :=
  let p := adcReadBits 10 0#10 (adcCommandPhase ch s)
  writeResult (validResult p.1) (lineWrite .adcCs true p.2)

/-- SAMPLE (R100): CH > 7 raises E_OPERAND_RANGE before any line event; otherwise the conversation. -/
def execSample (ch : Byte) (s : State) : Host.Outcome State Fault Refusal :=
  if 7 < ch.toNat then .next (raiseFault .operandRange (encode (.sample ch)) s)
  else .next (adcConversation ch s)

end Sys2Proof.Machine
end

