-- ==== Sys2Proof/Machine/Dark.lean ====
section
/-! DEFINITION. The Dark-State Flag: SETDARK (spec/44_dark_flag.md). -/

namespace Sys2Proof.Machine

/-- SETDARK (R160): DARK <- D. No line is driven (R163). -/
def execSetdark (d : Level) (s : State) : Host.Outcome State Fault Refusal :=
  .next (writeDark d s)

end Sys2Proof.Machine
end

