-- ==== Sys2Proof/Machine/Display.lean ====
section
/-! DEFINITION. The shift-register display driver: DISPLAY and the internal SR_STEP (spec/43_display_driver.md). -/

namespace Sys2Proof.Machine

/-- A frame is active and the queue holds `FQ_DEPTH` frames (R131, R136). -/
abbrev queueFull (s : State) : Prop := s.srActive = true ∧ s.fq.length = Config.fqDepth

/-- An accepted frame starts where the engine is idle and is queued where it is busy (R131). -/
def acceptFrame (u t : Byte) (s : State) : State :=
  if s.srActive then pushFrame u t s else startFrame u t s

/-- DISPLAY (R131): E_FRAME_OVERRUN where the queue is full; otherwise the frame is accepted. No line event (R130). -/
def execDisplay (upat tpat : Byte) (s : State) : Host.Outcome State Fault Refusal :=
  if queueFull s then .next (raiseFault .frameOverrun (encode (.display upat tpat)) s)
  else .next (acceptFrame (acceptUnits Config.darkSamplePoint s.dark upat) tpat s)

/-- The frame bit the next SR_STEP sends (R137). -/
def currentBit (s : State) : Level :=
  sentBit Config.darkSamplePoint s.dark s.srU s.srT s.srCur.toNat

/-- One bit on the wire: the data line, then a shift-clock pulse (R137, R138). -/
def shiftOut (b : Level) (s : State) : State :=
  pulse .srShclk (lineWrite .srData b s)

/-- SR_STEP (R137): sends the bit at the cursor; below 15 the cursor advances, at 15 the latch is pulsed and the next frame
starts or the engine is idle. It raises no fault. It is run only where `srEnabled` holds. -/
def srStep (s : State) : State :=
  if s.srCur.toNat < 15 then advanceCursor (shiftOut (currentBit s) s)
  else nextFrame (pulse .srLatch (shiftOut (currentBit s) s))

end Sys2Proof.Machine
end

