-- ==== Sys2Proof/Machine/Pattern.lean ====
section
/-! DEFINITION. The digit pattern table: PATFOR (spec/42_pattern_table.md). -/

namespace Sys2Proof.Machine

/-- PATFOR (R120): N > 16 raises E_OPERAND_RANGE; otherwise RESULT takes the table's pattern, zero-extended, with VALID. DARK
is not read. -/
def execPatfor (n : Byte) (s : State) : Host.Outcome State Fault Refusal :=
  match patternIndex n with
  | none => .next (raiseFault .operandRange (encode (.patfor n)) s)
  | some k => .next (writeResult (validResult ((patternTable k).zeroExtend 10)) s)

end Sys2Proof.Machine
end

