-- ==== Sys2Proof/Machine/Dispatch.lean ====
section
/-! DEFINITION. What a decoded command does when it runs (spec/20_memory.md R55, spec/30_encoding.md R74): one arm per
constructor of Instr. That a FAULTED machine runs no command is the CMD port's (Machine/Bus.lean, R207). -/

namespace Sys2Proof.Machine

/-- The command's own effect. -/
def exec (i : Instr) (s : State) : Host.Outcome State Fault Refusal :=
  match i with
  | .sample ch => Sys2Proof.Machine.execSample ch s
  | .patfor n => Sys2Proof.Machine.execPatfor n s
  | .display upat tpat => Sys2Proof.Machine.execDisplay upat tpat s
  | .setdark d => Sys2Proof.Machine.execSetdark d s

end Sys2Proof.Machine
end

