-- ==== Sys2Proof/Machine/Bus.lean ====
section
/-! DEFINITION. The host register block (spec/20_memory.md R50 to R56): the CMD port, the readable registers, and the accesses
BBPE gives no meaning to. -/

namespace Sys2Proof.Machine

/-- The cause a word that is no command raises (R74, R77). -/
def decodeCause : DecodeError → Cause
  | .illegalOp => .illegalOp
  | .reservedBits => .reservedBits

/-- A write of `w` to CMD (R55): no effect while FAULTED (R207); otherwise `w` is decoded and the command runs to completion,
or the decoding fault is raised with the word in FINFO (R74, R205). -/
def cmdWrite (w : Word) (s : State) : Host.Outcome State Fault Refusal :=
  if s.faulted then .next s
  else
    match decode w with
    | .ok i => exec i s
    | .error e => .next (raiseFault (decodeCause e) w s)

/-- The value a read of the window returns (R51): CMD reads 0 (R31), so do the reserved offsets (R53). -/
def readValue (off : Nat) (s : State) : Word :=
  match off with
  | 0x04 => s.result
  | 0x08 => statusView s
  | 0x0C => s.cause
  | 0x10 => s.finfo
  | _ => 0#32

/-- The read value is handed to the host (R179). BBPE's own state stays as it is (R56; log 11). -/
def reply (off : Nat) (v : Word) (s : State) : State :=
  { s with env := { s.env with replies := s.env.replies ++ [{ off := off, value := v }] } }

/-- An aligned 32-bit write in the window: CMD is the command port, every other offset ignores it (R53, R54). -/
def registerWrite (off : Nat) (data : Word) (s : State) : Host.Outcome State Fault Refusal :=
  match off with
  | 0x00 => cmdWrite data s
  | _ => .next s

/-- The checks on an access before it reaches a register: in the window (R51), 32 bits wide, at a multiple of 4 (R52). `k` is
what the access then does. -/
def guardAccess (off width : Nat) (k : Host.Outcome State Fault Refusal) : Host.Outcome State Fault Refusal :=
  if 0x20 ≤ off then .fault (.outsideWindow off)
  else if width ≠ 32 then .refused (.accessWidth width)
  else if off % 4 ≠ 0 then .refused (.misalignedOffset off)
  else k

/-- One host access (R10, R52). -/
def busAccess (op : BusOp) (s : State) : Host.Outcome State Fault Refusal :=
  match op with
  | .read off width => guardAccess off width (.next (reply off (readValue off s) s))
  | .write off width data => guardAccess off width (registerWrite off data s)

/-- The offset an address on the host bus reaches: the 32-byte window at `BBPE_BASE`, and nothing outside it (R50, R51, R59). -/
def windowOffset (addr : Nat) : Option Nat :=
  if Config.bbpeBase ≤ addr ∧ addr < Config.bbpeBase + 0x20 then some (addr - Config.bbpeBase) else none

end Sys2Proof.Machine
end

