-- ==== Sys2Proof/Machine/Agents.lean ====
section
/-! DEFINITION. The agents and their steps (spec/10_state.md R20, spec/20_memory.md R62, spec/60_exceptions.md R210, R221,
R222): one agent moves at a time, and which one is an input. -/

namespace Sys2Proof.Machine

/-- A TIME step: NOW <- NOW + 1, always enabled, nothing else (R222). -/
def timeStep (s : State) : State :=
  { s with now := s.now + 1 }

/-- SEQ's turn: SR_STEP fires where it is enabled (R221); where it is not, nothing happens (log 9). -/
def seqTurn (s : State) : State :=
  if srEnabled s then srStep s else s

/-- One step of the agent that moves. -/
def runAction (a : Action) (s : State) : Host.Outcome State Fault Refusal :=
  match a with
  | .host op => busAccess op s
  | .reset linesOk => .next (resetMachine linesOk s)
  | .seq => .next (seqTurn s)
  | .time => .next (timeStep s)

/-- Which agent moves next and how: what is lined up, else a free value, so every interleaving is admitted (R62; log 1). -/
def nextAction (s : State) : Action :=
  match s.env.inputs with
  | a :: _ => a
  | [] => Config.freeAction s.env.draws

/-- ENV once the choice of the next action is made. -/
def consumeAction (s : State) : State :=
  match s.env.inputs with
  | _ :: rest => { s with env := { s.env with inputs := rest } }
  | [] => { s with env := { s.env with draws := s.env.draws + 1 } }

/-- One step of the machine: the next action, run. -/
def agentStep (s : State) : Host.Outcome State Fault Refusal :=
  runAction (nextAction s) (consumeAction s)

/-- The actions of a list, run one after another, stopping at the first fault or refusal. -/
def runActions : List Action → State → Host.Outcome State Fault Refusal
  | [], s => .next s
  | a :: rest, s =>
    match runAction a s with
    | .next t => runActions rest t
    | .fault r => .fault r
    | .refused r => .refused r

/-- `s` with a host write of the word to CMD as the coming action. -/
def lineUpCommand (w : Word) (s : State) : State :=
  { s with env := { s.env with inputs := .host (.write 0x00 32 w) :: s.env.inputs } }

end Sys2Proof.Machine
end

