-- ==== Sys2Proof/Machine/Step.lean ====
section
/-! DEFINITION. One step of the machine, and how a command word is placed so that the very next step runs it. BBPE fetches
nothing and has no program counter (spec/10_state.md R22): a command arrives as a host write to CMD (R31; log 13). -/

namespace Sys2Proof.Machine

/-- One step: one agent moves (R20, R62, R210). -/
def step (s : State) : Host.Outcome State Fault Refusal :=
  agentStep s

/-- `s` with the host's coming action a write to CMD of the command word `w`, whose bits above `nbits` are 0. -/
def State.withFetchWord (s : State) (nbits w : Nat) : State :=
  lineUpCommand (BitVec.ofNat 32 (w % 2 ^ nbits)) s

end Sys2Proof.Machine
end

