-- ==== Sys2Proof/Machine/Assembler.lean ====
section
/-! DEFINITION. The assembler of spec/30_encoding.md R79: from the characters of a line (log 22) to the host access it stands for.
There are no pseudo-instructions (R80). -/

namespace Sys2Proof.Machine

/-- One line of a host program: a command or a host bus access (R79). -/
inductive AsmLine where
  | sample (ch : Nat)
  | patfor (n : Nat)
  | display (upat tpat : Nat)
  | setdark (d : Nat)
  | rd (off : Nat)
  | wr (off v : Nat)
  deriving DecidableEq, Repr

/-- The command word of R79's table; an operand outside its field's width is rejected. CH > 7 and N > 16 are accepted: the word
then faults when run (R76, R79). -/
def assembleWord : AsmLine → Option Word
  | .sample ch => if ch < 256 then some (0x10000000#32 ||| BitVec.ofNat 32 ch) else none
  | .patfor n => if n < 256 then some (0x20000000#32 ||| BitVec.ofNat 32 n) else none
  | .display upat tpat =>
    if upat < 256 ∧ tpat < 256 then
      some (0x30000000#32 ||| (BitVec.ofNat 32 tpat <<< 8) ||| BitVec.ofNat 32 upat)
    else none
  | .setdark d => if d < 2 then some (0x40000000#32 ||| BitVec.ofNat 32 d) else none
  | .rd _ => none
  | .wr _ _ => none

/-- The host access a line stands for: a command is a 32-bit write of its word to CMD (R70), `RD off` and `WR off, v` are
themselves. -/
def assembleAccess : AsmLine → Option BusOp
  | .rd off => some (.read off 32)
  | .wr off v => if v < 2 ^ 32 then some (.write off 32 (BitVec.ofNat 32 v)) else none
  | l => (assembleWord l).map (.write 0x00 32)

/-! ## Reading a line -/

/-- The value of a digit in a base. -/
def digitValue (base : Nat) (c : Char) : Option Nat :=
  let n := c.toNat
  let v :=
    if 48 ≤ n ∧ n ≤ 57 then n - 48
    else if 65 ≤ n ∧ n ≤ 70 then n - 55
    else if 97 ≤ n ∧ n ≤ 102 then n - 87
    else base
  if v < base then some v else none

/-- The digits' value, most significant first, on top of what was read. -/
def digitsValue (base : Nat) : List Char → Nat → Option Nat
  | [], acc => some acc
  | c :: cs, acc =>
    match digitValue base c with
    | some v => digitsValue base cs (acc * base + v)
    | none => none

/-- A literal in a base: at least one digit. -/
def literalIn (base : Nat) (cs : List Char) : Option Nat :=
  match cs with
  | [] => none
  | _ :: _ => digitsValue base cs 0

/-- A decimal, `0x` hexadecimal or `0b` binary literal (R79). -/
def parseLiteral : List Char → Option Nat
  | '0' :: 'x' :: cs => literalIn 16 cs
  | '0' :: 'b' :: cs => literalIn 2 cs
  | cs => literalIn 10 cs

/-- The pieces between commas. -/
def splitCommas : List Char → List Char → List (List Char)
  | [], piece => [piece.reverse]
  | c :: cs, piece => if c = ',' then piece.reverse :: splitCommas cs [] else splitCommas cs (c :: piece)

/-- Without the spaces at both ends. -/
def trimSpaces (cs : List Char) : List Char :=
  (((cs.dropWhile (· = ' ')).reverse).dropWhile (· = ' ')).reverse

/-- The operands of a line, none where one of them is no literal. -/
def parseOperands (cs : List Char) : Option (List Nat) :=
  (splitCommas cs []).mapM fun p => parseLiteral (trimSpaces p)

/-- A line: the mnemonic, a space, the operands separated by commas (R79). -/
def parseLine (line : List Char) : Option AsmLine :=
  let l := trimSpaces line
  let mnemonic := l.takeWhile (· ≠ ' ')
  match parseOperands (l.dropWhile (· ≠ ' ')) with
  | some [a] =>
    if mnemonic = ['S', 'A', 'M', 'P', 'L', 'E'] then some (.sample a)
    else if mnemonic = ['P', 'A', 'T', 'F', 'O', 'R'] then some (.patfor a)
    else if mnemonic = ['S', 'E', 'T', 'D', 'A', 'R', 'K'] then some (.setdark a)
    else if mnemonic = ['R', 'D'] then some (.rd a)
    else none
  | some [a, b] =>
    if mnemonic = ['D', 'I', 'S', 'P', 'L', 'A', 'Y'] then some (.display a b)
    else if mnemonic = ['W', 'R'] then some (.wr a b)
    else none
  | _ => none

/-- A line of text to the access it stands for; none where the assembler rejects it. -/
def assembleText (line : List Char) : Option BusOp :=
  (parseLine line).bind assembleAccess

end Sys2Proof.Machine
end

