-- ==== Sys2Proof/Safety.lean ====
section
/-! DEFINITION. The terms claims are made in: the invariant of a reachable state (spec/10_state.md R42 and what the rules add
to it), the line events of a SAMPLE and of a frame as their tables give them (R102, R139), the frames still to be sent, when a
run is final and when it is fair (spec/45_host_sequences.md R180, R181). -/

namespace Sys2Proof.Machine

/-- The state a step answers, where it answers one. -/
def nextState (o : Host.Outcome State Fault Refusal) : Option State :=
  match o with
  | .next t => some t
  | .fault _ => none
  | .refused _ => none

/-! ## The invariant -/

/-- What holds in every reachable state. R42's (a) is `SR_CUR`'s type. -/
structure State.Inv (s : State) : Prop where
  /-- R42 (b). -/
  idle : s.srActive = false → s.srCur = 0#4 ∧ s.fq = []
  /-- R42 (c). -/
  queue : s.fq.length ≤ Config.fqDepth
  /-- R42 (d). -/
  noFault : s.faulted = false → s.cause = 0#32 ∧ s.finfo = 0#32
  /-- R42 (e). -/
  resultBits : s.result.extractLsb' 10 21 = 0#21
  /-- R200: a FAULTED machine has one of the codes 1 to 5. -/
  causeCodes : s.faulted = true → 1 ≤ s.cause.toNat ∧ s.cause.toNat ≤ 5
  /-- R146 and R111: between steps every clock is low and the ADC is deselected, unless a line was missing at reset. -/
  linesRest : s.cause ≠ 5#32 →
    s.levels.adcCs = true ∧ s.levels.adcClk = false ∧ s.levels.srShclk = false ∧ s.levels.srLatch = false
  /-- R220: an armed step was armed with `BIT_DELAY`, at a time that is not in the future. -/
  due : s.srActive = true → s.srDue ≤ s.now + Config.bitDelay

/-! ## Line events -/

/-- The event is on one of the ADC lines, ids 0 to 3 (R24). -/
def LineEvent.onAdc : LineEvent → Bool
  | .W l _ => isAdcLine l
  | .R _ _ => true

/-- The trace restricted to the display driver's lines, ids 4 to 6 (R141). -/
def displayEvents (tr : List LineEvent) : List LineEvent := tr.filter fun e => !e.onAdc

/-- The trace restricted to the ADC's lines, ids 0 to 3. -/
def adcEvents (tr : List LineEvent) : List LineEvent := tr.filter fun e => e.onAdc

/-- Events 3 + 3i to 5 + 3i of R102: one command bit. -/
def commandBitEvents (b : Level) : List LineEvent := [.W .adcDin b, .W .adcClk true, .W .adcClk false]

/-- Events 20 + 3j to 22 + 3j of R102: one result bit. -/
def resultBitEvents (b : Level) : List LineEvent := [.W .adcClk true, .W .adcClk false, .R .adcDout b]

/-- The 51 events of a SAMPLE by R102's table, for the command bits of `ch` and the ten levels read. -/
def sampleEvents (ch : Byte) (bits : List Level) : List LineEvent :=
  [LineEvent.W OutLine.adcCs true, LineEvent.W OutLine.adcClk false, LineEvent.W OutLine.adcCs false]
    ++ (List.range 5).flatMap (fun i => commandBitEvents ((adcCommandByte ch).getLsbD (7 - i)))
    ++ [LineEvent.W OutLine.adcClk true, LineEvent.W OutLine.adcClk false]
    ++ bits.flatMap resultBitEvents
    ++ [LineEvent.W OutLine.adcCs true]

/-- The event writes the line. -/
def writesLine (l : OutLine) (e : LineEvent) : Bool :=
  match e with
  | .W m _ => decide (m = l)
  | .R _ _ => false

/-- The event reads ADC_DOUT. -/
def readsDout (e : LineEvent) : Bool :=
  match e with
  | .W _ _ => false
  | .R _ _ => true

/-- R102's table, row by row: `block` has the event the table gives at each micro-operation, for the command byte `c` and the
levels `bits` that the ten reads return. -/
structure FollowsSampleTable (c : Byte) (bits : List Level) (block : List LineEvent) : Prop where
  row0 : block[0]? = some (LineEvent.W OutLine.adcCs true)
  row1 : block[1]? = some (LineEvent.W OutLine.adcClk false)
  row2 : block[2]? = some (LineEvent.W OutLine.adcCs false)
  bitOnDin : ∀ i, i < 5 → block[3 + 3 * i]? = some (LineEvent.W OutLine.adcDin (c.getLsbD (7 - i)))
  bitRise : ∀ i, i < 5 → block[4 + 3 * i]? = some (LineEvent.W OutLine.adcClk true)
  bitFall : ∀ i, i < 5 → block[5 + 3 * i]? = some (LineEvent.W OutLine.adcClk false)
  row18 : block[18]? = some (LineEvent.W OutLine.adcClk true)
  row19 : block[19]? = some (LineEvent.W OutLine.adcClk false)
  readRise : ∀ j, j < 10 → block[20 + 3 * j]? = some (LineEvent.W OutLine.adcClk true)
  readFall : ∀ j, j < 10 → block[21 + 3 * j]? = some (LineEvent.W OutLine.adcClk false)
  readBit : ∀ j, j < 10 → block[22 + 3 * j]? = (bits[j]?).map (LineEvent.R InLine.adcDout)
  row50 : block[50]? = some (LineEvent.W OutLine.adcCs true)

/-- The three events of one frame bit (R138). -/
def frameBitEvents (b : Level) : List LineEvent := [.W .srData b, .W .srShclk true, .W .srShclk false]

/-- The two events of the latch pulse (R138). -/
def latchEvents : List LineEvent := [.W .srLatch true, .W .srLatch false]

/-- The events of the frame word's first `n` bits (R84, R139). -/
def frameStart (f : BitVec 16) (n : Nat) : List LineEvent :=
  (List.range n).flatMap fun k => frameBitEvents (f.getLsbD k)

/-- The 50 events of a whole frame (R139). -/
def frameEvents (f : BitVec 16) : List LineEvent := frameStart f 16 ++ latchEvents

/-! ## Frames accepted and sent -/

/-- The frames accepted and not yet latched, in the order they will be: the active one, then the queue (R33, R140). -/
def pendingFrames (s : State) : List Frame :=
  match s.srActive with
  | true => { u := s.srU, t := s.srT } :: s.fq
  | false => []

/-- The frame an action makes the machine accept, if any: a CMD write of a DISPLAY that is neither ignored (R207) nor an overrun
(R136), with the units pattern as accepted (R131). -/
def acceptedBy (a : Action) (s : State) : List Frame :=
  match a with
  | .host (.write 0x00 32 w) =>
    match decode w with
    | .ok (.display upat tpat) =>
      if s.faulted = true ∨ queueFull s then []
      else [{ u := acceptUnits Config.darkSamplePoint s.dark upat, t := tpat }]
    | _ => []
  | _ => []

/-- The bit at place `k` of a sent frame word against the accepted frame's (R34): the same, but that in `STEP` mode bit 4 may
also have been forced to 1 (R137). -/
def bitAgrees (p : DarkSamplePoint) (f : Frame) (sent : BitVec 16) (k : Nat) : Prop :=
  if p = .step ∧ k = 4 then (f.u.getLsbD 4 = true → sent.getLsbD 4 = true)
  else sent.getLsbD k = (frameWord f.u f.t).getLsbD k

/-- The word `sent` is the accepted frame `f` as it went out. -/
def SentAs (f : Frame) (sent : BitVec 16) : Prop :=
  ∀ k, k < 16 → bitAgrees Config.darkSamplePoint f sent k

/-- What the display lines show, for the frames accepted so far (R139 to R141): the accepted frames are the latched ones and
then the pending ones, in order; the display trace is the latched frames' whole event blocks, one after another, and then the
start of the active frame's block, as far as the cursor. -/
def WireShows (accepted : List Frame) (s : State) : Prop :=
  ∃ (latched : List Frame) (sent : List (BitVec 16)) (current : BitVec 16),
    accepted = latched ++ pendingFrames s
      ∧ List.Forall₂ SentAs latched sent
      ∧ displayEvents s.trace = sent.flatMap frameEvents ++ frameStart current s.srCur.toNat
      ∧ (s.srActive = true →
          ∀ k, k < s.srCur.toNat → bitAgrees Config.darkSamplePoint { u := s.srU, t := s.srT } current k)

/-! ## Runs -/

/-- `σ` is an infinite run whose n-th step is the action `sched n`. -/
def IsRun (sched : Nat → Action) (σ : Nat → State) : Prop :=
  ∀ n, runAction (sched n) (σ n) = .next (σ (n + 1))

/-- R181: TIME steps occur infinitely often, and an SR_STEP that stays enabled eventually fires. -/
def Fair (sched : Nat → Action) (σ : Nat → State) : Prop :=
  (∀ n, ∃ m, n ≤ m ∧ sched m = .time)
    ∧ ∀ n, (∀ m, n ≤ m → srEnabled (σ m) = true) → ∃ m, n ≤ m ∧ sched m = .seq

/-- From step `n` on the host issues nothing, no access and no reset (R180 (a)). -/
def HostDone (sched : Nat → Action) (n : Nat) : Prop :=
  ∀ m, n ≤ m → sched m = .seq ∨ sched m = .time

/-- R180 (b) and (c): FAULTED = 0 and SR_ACTIVE = 0. With the host done, the run is final. -/
def quiescent (s : State) : Prop := s.faulted = false ∧ s.srActive = false

end Sys2Proof.Machine
end

