-- ==== Sys2Proof/Certificates/Slice0/Obligations.lean ====
section
/-! DEFINITION. The statements for the provers, from the numbered rules of spec/. Each docstring names the rule. -/

open Sys2Proof Sys2Proof.Machine

/-! ## Encoding -/

/-- R85, R204 and the examples of R100, R120, R130, R160: words written out from the spec's encoding decode to the commands they
stand for, and R204's example words are rejected for the reason it gives. -/
def Obligations.SpecWordsDecode : Prop :=
  decode 0x10000005#32 = .ok (.sample 5#8)
    ∧ decode 0x20000010#32 = .ok (.patfor 16#8)
    ∧ decode 0x30002D23#32 = .ok (.display 0x23#8 0x2D#8)
    ∧ decode 0x40000001#32 = .ok (.setdark true)
    ∧ decode 0x5000FFFF#32 = .error .illegalOp
    ∧ decode 0x1000FF09#32 = .error .reservedBits

/-- R79, R85: decoding a command's word gives the command back, with every operand at every value. -/
def Obligations.DecodeEncodeAgree : Prop :=
  ∀ i : Instr, decode (encode i) = .ok i

/-- R70, R74: a word that decodes is the word of the command it decodes to, so no two words mean one command and FINFO's
command word (R205) is the word that was written. -/
def Obligations.DecodedWordIsItsEncoding : Prop :=
  ∀ (w : Word) (i : Instr), decode w = .ok i → encode i = w

/-- R85: the decoder is the table of matches and masks, operand fields taken by value, and a word that matches no row faults
when it is written to CMD. -/
def Obligations.DecodeFollowsMaskTable : Prop :=
  ∀ w : Word,
    (∀ i : Instr, decode w = .ok i ↔
      (w &&& 0xFFFFFF00#32 = 0x10000000#32 ∧ i = .sample (BitVec.ofNat 8 w.toNat))
        ∨ (w &&& 0xFFFFFF00#32 = 0x20000000#32 ∧ i = .patfor (BitVec.ofNat 8 w.toNat))
        ∨ (w &&& 0xFFFF0000#32 = 0x30000000#32
            ∧ i = .display (BitVec.ofNat 8 w.toNat) (BitVec.ofNat 8 (w.toNat / 256)))
        ∨ (w &&& 0xFFFFFFFE#32 = 0x40000000#32 ∧ i = .setdark (w.toNat % 2 == 1)))
    ∧ ((w &&& 0xFFFFFF00#32 ≠ 0x10000000#32 ∧ w &&& 0xFFFFFF00#32 ≠ 0x20000000#32
          ∧ w &&& 0xFFFF0000#32 ≠ 0x30000000#32 ∧ w &&& 0xFFFFFFFE#32 ≠ 0x40000000#32)
        → ∃ e, decode w = .error e
            ∧ ∀ s : State, s.faulted = false → cmdWrite w s = .next (raiseFault (decodeCause e) w s))

/-- R79: the assembler's words are the encoder's, for every operand that fits its field. -/
def Obligations.AssemblerAgreesWithEncoder : Prop :=
  ∀ a b : Nat, a < 256 → b < 256 →
    assembleWord (.sample a) = some (encode (.sample (BitVec.ofNat 8 a)))
      ∧ assembleWord (.patfor a) = some (encode (.patfor (BitVec.ofNat 8 a)))
      ∧ assembleWord (.display a b) = some (encode (.display (BitVec.ofNat 8 a) (BitVec.ofNat 8 b)))
      ∧ (a < 2 → assembleWord (.setdark a) = some (encode (.setdark (a == 1))))

/-! ## A step runs the decoded command -/

/-- R55, R74: where the host's coming access is a 32-bit write to CMD of a word that decodes to `i`, and BBPE is not FAULTED, the
step is `exec i` on the state from which that access is taken (that coming actions are lined up in the state is the model's
convention, log 1). -/
def Obligations.StepRunsDecodedCommand : Prop :=
  ∀ (s : State) (w : Word) (i : Instr) (rest : List Action),
    s.faulted = false → s.env.inputs = .host (.write 0x00 32 w) :: rest → decode w = .ok i →
      step s = exec i { s with env := { s.env with inputs := rest } }

/-- R55: a placed command word is what the very next step runs, on the state it was placed in (how a word is placed is the
model's convention, log 13). -/
def Obligations.PlacedWordRunsNext : Prop :=
  ∀ (s : State) (nbits w : Nat) (i : Instr),
    s.faulted = false → decodeTableWord nbits w = some i → step (s.withFetchWord nbits w) = exec i s

/-! ## SAMPLE -/

/-- R100, R105 to R107, R111, R114: SAMPLE on a legal channel completes, and this is its whole next state: the three ADC lines,
the trace, RESULT and the levels ENV has supplied; every other element is unchanged. -/
def Obligations.SampleNextState : Prop :=
  ∀ (s : State) (ch : Byte), ch.toNat ≤ 7 →
    exec (.sample ch) s = .next
      { s with
        levels := { s.levels with adcCs := true, adcClk := false, adcDin := ch.getLsbD 0 }
        trace := s.trace ++ sampleEvents ch (doutDraws 10 s)
        result := 0x80000000#32 ||| (valueOfBits (doutDraws 10 s)).zeroExtend 32
        env := (consumeDouts 10 s).env }

/-- R102: the 51 events of a SAMPLE, position by position, and their totals. -/
def Obligations.SampleEventTable : Prop :=
  ∀ (s : State) (ch : Byte), ch.toNat ≤ 7 →
    ∃ (t : State) (block : List LineEvent),
      exec (.sample ch) s = .next t ∧ t.trace = s.trace ++ block
        ∧ FollowsSampleTable ((0x18#8 ||| ch) <<< 3) (doutDraws 10 s) block
        ∧ block.length = 51
        ∧ block.countP (writesLine OutLine.adcCs) = 3
        ∧ block.countP (writesLine OutLine.adcDin) = 5
        ∧ block.countP (writesLine OutLine.adcClk) = 33
        ∧ block.countP (fun e => decide (e = LineEvent.W OutLine.adcClk true)) = 16
        ∧ block.countP readsDout = 10

/-- R106: the result is the sum of the bits read, the j-th weighted 2^(9−j), and RESULT holds it with VALID. -/
def Obligations.SampleResultIsWeightedSum : Prop :=
  ∀ (s : State) (ch : Byte), ch.toNat ≤ 7 →
    ∃ t, exec (.sample ch) s = .next t
      ∧ t.result = BitVec.ofNat 32
          (2 ^ 31 + ((doutDraws 10 s).zipIdx.map fun p => p.1.toNat * 2 ^ (9 - p.2)).sum)
      ∧ ((doutDraws 10 s).zipIdx.map fun p => p.1.toNat * 2 ^ (9 - p.2)).sum < 2 ^ 10

/-- R110: whatever 10-bit value the ten reads return, most significant bit first, RESULT[9:0] is that value. -/
def Obligations.SampleRoundTrip : Prop :=
  ∀ (s : State) (ch : Byte) (v : BitVec 10), ch.toNat ≤ 7 →
    doutDraws 10 s = (List.range 10).map (fun j => v.getLsbD (9 - j)) →
      ∃ t, exec (.sample ch) s = .next t ∧ t.result.extractLsb' 0 10 = v

/-- R111: the ADC lines after a SAMPLE that does not fault. -/
def Obligations.SampleEndLevels : Prop :=
  ∀ (s : State) (ch : Byte), ch.toNat ≤ 7 →
    ∃ t, exec (.sample ch) s = .next t
      ∧ t.levels.adcCs = true ∧ t.levels.adcClk = false ∧ t.levels.adcDin = ch.getLsbD 0

/-- R76, R100, R113: a channel above 7 raises E_OPERAND_RANGE and changes nothing but the fault registers. -/
def Obligations.SampleOutOfRange : Prop :=
  ∀ (s : State) (ch : Byte), 7 < ch.toNat →
    exec (.sample ch) s = .next
      { s with faulted := true, cause := 3#32, finfo := 0x10000000#32 ||| ch.zeroExtend 32 }

/-- R68, R114: for the same ADC_DOUT levels, a SAMPLE and an SR_STEP commute but for how their blocks lie in the trace: every
other element is equal, and each part's lines see the same events in the same order. R109 leaves every level read to ENV; that
both orders read the same levels, and so leave RESULT, the read events and `env` equal, is the model's choice (log 2). -/
def Obligations.SampleAndSrStepCommutePerLine : Prop :=
  ∀ (s : State) (ch : Byte), ch.toNat ≤ 7 → srEnabled s = true →
    ∃ a b : State,
      exec (.sample ch) (srStep s) = .next a
        ∧ (∃ m, exec (.sample ch) s = .next m ∧ srEnabled m = true ∧ b = srStep m)
        ∧ { a with trace := [] } = { b with trace := [] }
        ∧ adcEvents a.trace = adcEvents b.trace
        ∧ displayEvents a.trace = displayEvents b.trace

/-! ## PATFOR -/

/-- R120, R123, R125: PATFOR on a legal index completes, and this is its whole next state. -/
def Obligations.PatforNextState : Prop :=
  ∀ (s : State) (n : Byte) (h : n.toNat < 17),
    exec (.patfor n) s = .next
      { s with result := 0x80000000#32 ||| (patternTable ⟨n.toNat, h⟩).zeroExtend 32 }

/-- R121, with the words of R120's vectors: the three entries the source fixes. -/
def Obligations.PatforFixedEntries : Prop :=
  ∀ s : State,
    exec (.patfor 4#8) s = .next { s with result := 0x8000002D#32 }
      ∧ exec (.patfor 7#8) s = .next { s with result := 0x80000023#32 }
      ∧ exec (.patfor 16#8) s = .next { s with result := 0x80000000#32 }

/-- R76, R120, R126: an index above 16 raises E_OPERAND_RANGE and changes nothing but the fault registers. -/
def Obligations.PatforOutOfRange : Prop :=
  ∀ (s : State) (n : Byte), 16 < n.toNat →
    exec (.patfor n) s = .next
      { s with faulted := true, cause := 3#32, finfo := 0x20000000#32 ||| n.zeroExtend 32 }

/-! ## DISPLAY -/

/-- R131, R132: a DISPLAY on an idle engine starts its frame, and this is its whole next state: no line event, and the first
step due `BIT_DELAY` from now. -/
def Obligations.DisplayIdleStartsFrame : Prop :=
  ∀ (s : State) (u t : Byte), s.srActive = false →
    exec (.display u t) s = .next
      { s with
        srActive := true
        srU := acceptUnits Config.darkSamplePoint s.dark u
        srT := t
        srCur := 0#4
        srDue := s.now + Config.bitDelay }

/-- R131, R135: a DISPLAY on a busy engine whose queue is not full appends its frame to the queue's tail, and changes nothing
else. -/
def Obligations.DisplayBusyQueues : Prop :=
  ∀ (s : State) (u t : Byte), s.srActive = true → s.fq.length < Config.fqDepth →
    exec (.display u t) s = .next
      { s with fq := s.fq ++ [{ u := acceptUnits Config.darkSamplePoint s.dark u, t := t }] }

/-- R136: a DISPLAY while a frame is active and the queue is full raises E_FRAME_OVERRUN; the frame is not accepted. -/
def Obligations.DisplayOverrunFaults : Prop :=
  ∀ (s : State) (u t : Byte), s.srActive = true → s.fq.length = Config.fqDepth →
    exec (.display u t) s = .next
      { s with
        faulted := true
        cause := 4#32
        finfo := 0x30000000#32 ||| (t.zeroExtend 32 <<< 8) ||| u.zeroExtend 32 }

/-- R131, R133, R134: the units pattern an idle engine accepts differs from the operand only in bit 4, only in `ACCEPT` mode, and
only by DARK forcing it to 1; the tens pattern is never touched. -/
def Obligations.DarkOverrideOnlyBitFour : Prop :=
  ∀ (s : State) (u t : Byte), s.srActive = false →
    ∃ x, exec (.display u t) s = .next x ∧ x.srT = t
      ∧ ∀ k, k < 8 → x.srU.getLsbD k =
          if k = 4 ∧ Config.darkSamplePoint = .accept then (u.getLsbD 4 || s.dark) else u.getLsbD k

/-! ## SETDARK -/

/-- R160: SETDARK completes, writes DARK and nothing else, and STATUS[1] shows it. -/
def Obligations.SetdarkNextState : Prop :=
  ∀ (s : State) (d : Level),
    ∃ t, exec (.setdark d) s = .next t ∧ t = { s with dark := d } ∧ (statusView t).getLsbD 1 = d

/-! ## SR_STEP and the wire -/

/-- R137, k < 15: an enabled SR_STEP sends the bit at the cursor, moves the cursor on and arms the next step. This is its whole
next state. -/
def Obligations.SrStepMidFrame : Prop :=
  ∀ s : State, srEnabled s = true → s.srCur.toNat < 15 →
    ∃ bit : Level,
      bit = ((if s.srCur.toNat < 8 then s.srU.getLsbD s.srCur.toNat else s.srT.getLsbD (s.srCur.toNat - 8))
              || (decide (s.srCur.toNat = 4 ∧ Config.darkSamplePoint = .step) && s.dark))
        ∧ runAction .seq s = .next
            { s with
              levels := { s.levels with srData := bit, srShclk := false }
              trace := s.trace ++ [.W .srData bit, .W .srShclk true, .W .srShclk false]
              srCur := BitVec.ofNat 4 (s.srCur.toNat + 1)
              srDue := s.now + Config.bitDelay }

/-- R137, k = 15 with nothing queued: the last bit, the latch pulse, and the engine is idle. -/
def Obligations.SrStepLatchesAndIdles : Prop :=
  ∀ s : State, srEnabled s = true → s.srCur = 15#4 → s.fq = [] →
    runAction .seq s = .next
      { s with
        levels := { s.levels with srData := s.srT.getLsbD 7, srShclk := false, srLatch := false }
        trace := s.trace ++ [.W .srData (s.srT.getLsbD 7), .W .srShclk true, .W .srShclk false,
          .W .srLatch true, .W .srLatch false]
        srActive := false
        srCur := 0#4 }

/-- R137, R144, k = 15 with a frame queued: the oldest queued frame starts in the step that latches its predecessor, and its
first bit waits `BIT_DELAY`. -/
def Obligations.SrStepLatchesAndStartsNext : Prop :=
  ∀ (s : State) (f : Frame) (rest : List Frame), srEnabled s = true → s.srCur = 15#4 → s.fq = f :: rest →
    runAction .seq s = .next
      { s with
        levels := { s.levels with srData := s.srT.getLsbD 7, srShclk := false, srLatch := false }
        trace := s.trace ++ [.W .srData (s.srT.getLsbD 7), .W .srShclk true, .W .srShclk false,
          .W .srLatch true, .W .srLatch false]
        srU := f.u
        srT := f.t
        srCur := 0#4
        srDue := s.now + Config.bitDelay
        fq := rest }

/-- R138: how many events an SR_STEP appends, their order, and the bit on SR_DATA, which is R137's. -/
def Obligations.SrStepEventBlock : Prop :=
  ∀ s : State, srEnabled s = true →
    ∃ (t : State) (bit : Level), runAction .seq s = .next t
      ∧ bit = ((if s.srCur.toNat < 8 then s.srU.getLsbD s.srCur.toNat else s.srT.getLsbD (s.srCur.toNat - 8))
              || (decide (s.srCur.toNat = 4 ∧ Config.darkSamplePoint = .step) && s.dark))
      ∧ t.trace = s.trace ++
          (if s.srCur.toNat < 15 then
            [LineEvent.W OutLine.srData bit, LineEvent.W OutLine.srShclk true, LineEvent.W OutLine.srShclk false]
          else
            [LineEvent.W OutLine.srData bit, LineEvent.W OutLine.srShclk true, LineEvent.W OutLine.srShclk false,
              LineEvent.W OutLine.srLatch true, LineEvent.W OutLine.srLatch false])

/-- R221: SR_STEP is enabled exactly when SR_ACTIVE = 1, FAULTED = 0 and NOW ≥ SR_DUE, and where it is not, SEQ changes
nothing (a turn of SEQ without an enabled step is the model's, log 9). -/
def Obligations.SrStepOnlyWhenEnabled : Prop :=
  ∀ s : State,
    (srEnabled s = true ↔ s.srActive = true ∧ s.faulted = false ∧ s.srDue ≤ s.now)
      ∧ (srEnabled s = false → runAction .seq s = .next s)

/-- R139, R142: the sixteen SR_STEPs of a started frame put exactly the frame's 50 writes on the display lines, bit k of the
frame word at step k, with the override in force. -/
def Obligations.FrameIsFiftyWrites : Prop :=
  ∀ s : State, s.srCur = 0#4 →
    (srStep^[16] s).trace = s.trace
      ++ (List.range 16).flatMap (fun k =>
          [LineEvent.W OutLine.srData ((frameWord s.srU s.srT).getLsbD k
              || (decide (k = 4 ∧ Config.darkSamplePoint = DarkSamplePoint.step) && s.dark)),
            LineEvent.W OutLine.srShclk true, LineEvent.W OutLine.srShclk false])
      ++ [LineEvent.W OutLine.srLatch true, LineEvent.W OutLine.srLatch false]

/-- R132, R137, R139, R142, R143: a frame handed to an idle engine that is not FAULTED goes out, whatever `DARK_SAMPLE_POINT` is:
with each SR_STEP fired as early as allowed it is latched 16 · `BIT_DELAY` after its start, with exactly its 50 writes on the
wire, bit 4 of the units pattern forced to 1 where DARK is 1, and the engine is idle. -/
def Obligations.DisplayedFrameReachesItsLatch : Prop :=
  ∀ (s : State) (u v : Byte), s.srActive = false → s.faulted = false → s.fq = [] →
    ∃ x t : State, exec (.display u v) s = .next x
      ∧ runActions (List.replicate 16 (List.replicate Config.bitDelay Action.time ++ [Action.seq])).flatten x = .next t
      ∧ t.now = s.now + 16 * Config.bitDelay
      ∧ t.srActive = false ∧ t.srCur = 0#4
      ∧ t.trace = s.trace
          ++ (List.range 16).flatMap (fun k =>
              [LineEvent.W OutLine.srData ((frameWord u v).getLsbD k || (decide (k = 4) && s.dark)),
                LineEvent.W OutLine.srShclk true, LineEvent.W OutLine.srShclk false])
          ++ [LineEvent.W OutLine.srLatch true, LineEvent.W OutLine.srLatch false]

/-- R34, R135, R139 to R141, at reset: with nothing accepted, the display lines show nothing. -/
def Obligations.WireShowsNothingAtReset : Prop :=
  WireShows [] State.reset

/-- R34, R135, R139 to R141: every step but a reset keeps it true that the display lines show the accepted frames whole, in the
order of acceptance, uninterleaved, and then the start of the active one. The invariant of reachable states is a premise,
since an idle engine with a cursor left over is not reachable. -/
def Obligations.FramesLatchInOrderUninterleaved : Prop :=
  ∀ (accepted : List Frame) (s t : State),
    s.Inv → WireShows accepted s → (∀ m, nextAction s ≠ .reset m) → step s = .next t →
      WireShows (accepted ++ acceptedBy (nextAction s) (consumeAction s)) t

/-- R63 (b), R140: where SR_ACTIVE = 0, every accepted frame has been sent whole and latched, and the display lines show nothing
else. -/
def Obligations.NotBusyMeansAllLatched : Prop :=
  ∀ (accepted : List Frame) (s : State), s.Inv → WireShows accepted s → s.srActive = false →
    ∃ sent : List (BitVec 16), List.Forall₂ SentAs accepted sent ∧ displayEvents s.trace = sent.flatMap frameEvents

/-- R26, R134, R162: away from bit 4 an SR_STEP does not read DARK, so a SETDARK before it and one after it leave the same. -/
def Obligations.DarkReadOnlyAtBitFour : Prop :=
  ∀ (s : State) (d : Level), srEnabled s = true → s.srCur ≠ 4#4 →
    runAction .seq { s with dark := d } = .next { srStep s with dark := d }

/-- R143, R144, R220: from an SR_STEP, and from a DISPLAY that starts a frame, no SR_STEP is enabled before `BIT_DELAY` has
passed, whatever HOST, SEQ and TIME do in between. -/
def Obligations.StepsArePaced : Prop :=
  ∀ (s x t : State) (acts : List Action), (∀ m, Action.reset m ∉ acts) →
    ((srEnabled s = true ∧ runAction .seq s = .next x)
      ∨ (s.srActive = false ∧ ∃ u v, exec (.display u v) s = .next x)) →
    runActions acts x = .next t → srEnabled t = true → s.now + Config.bitDelay ≤ t.now

/-- R181, R182: in a fair run with no reset and no fault, an active frame is latched, whatever else the host does. -/
def Obligations.ActiveFrameIsEventuallyLatched : Prop :=
  ∀ (sched : Nat → Action) (σ : Nat → State) (n : Nat),
    IsRun sched σ → Fair sched σ → (∀ m k, n ≤ m → sched m ≠ .reset k) → (∀ m, n ≤ m → (σ m).faulted = false) →
    (σ n).srActive = true →
      ∃ m, n ≤ m ∧ sched m = .seq ∧ srEnabled (σ m) = true ∧ (σ m).srCur = 15#4

/-- R180, R182: a fair run in which the host has issued its last access, with FAULTED = 0, reaches a final state. -/
def Obligations.FinishedHostReachesFinalState : Prop :=
  ∀ (sched : Nat → Action) (σ : Nat → State) (n : Nat),
    IsRun sched σ → Fair sched σ → HostDone sched n → (σ n).faulted = false →
      ∃ m, n ≤ m ∧ quiescent (σ m)

/-! ## The fault path -/

/-- R74, R77: a word that is no command raises E_ILLEGAL_OP where its OP is none of 1 to 4, and otherwise E_RESERVED_BITS where a
reserved bit of its format is 1; nothing but the fault registers changes. -/
def Obligations.RejectedWordFaults : Prop :=
  ∀ (s : State) (w : Word), s.faulted = false →
    ((w.toNat / 2 ^ 28 = 0 ∨ 4 < w.toNat / 2 ^ 28) →
      runAction (.host (.write 0x00 32 w)) s = .next { s with faulted := true, cause := 1#32, finfo := w })
    ∧ ((((w.toNat / 2 ^ 28 = 1 ∨ w.toNat / 2 ^ 28 = 2) ∧ w &&& 0x0FFFFF00#32 ≠ 0#32)
          ∨ (w.toNat / 2 ^ 28 = 3 ∧ w &&& 0x0FFF0000#32 ≠ 0#32)
          ∨ (w.toNat / 2 ^ 28 = 4 ∧ w &&& 0x0FFFFFFE#32 ≠ 0#32)) →
      runAction (.host (.write 0x00 32 w)) s = .next { s with faulted := true, cause := 2#32, finfo := w })

/-- R205: a command that faults changes nothing but FAULTED, CAUSE and FINFO, and FINFO is the word written to CMD. -/
def Obligations.FaultsArePrecise : Prop :=
  ∀ (s t : State) (w : Word), s.faulted = false →
    runAction (.host (.write 0x00 32 w)) s = .next t → t.faulted = true →
      t = { s with faulted := true, cause := t.cause, finfo := w }
        ∧ (t.cause = 1#32 ∨ t.cause = 2#32 ∨ t.cause = 3#32 ∨ t.cause = 4#32)

/-- R207: while FAULTED a CMD write has no effect and appends no event, the four registers are still read, SR_STEP never fires,
and TIME still advances NOW. That SEQ has a turn at all where SR_STEP is not enabled, and that such a turn changes nothing,
is the model's choice (log 9); that a read is recorded in `env.replies` is the model's (log 11). -/
def Obligations.FaultedMachineIsHalted : Prop :=
  ∀ s : State, s.faulted = true →
    (∀ w, runAction (.host (.write 0x00 32 w)) s = .next s)
      ∧ runAction (.host (.read 0x04 32)) s = .next (reply 0x04 s.result s)
      ∧ runAction (.host (.read 0x08 32)) s = .next (reply 0x08 (statusView s) s)
      ∧ runAction (.host (.read 0x0C 32)) s = .next (reply 0x0C s.cause s)
      ∧ runAction (.host (.read 0x10 32)) s = .next (reply 0x10 s.finfo s)
      ∧ srEnabled s = false
      ∧ runAction .seq s = .next s
      ∧ runAction .time s = .next { s with now := s.now + 1 }

/-- R37, R208: only a reset clears FAULTED, CAUSE and FINFO, so CAUSE keeps the first fault. -/
def Obligations.OnlyResetLeavesFaulted : Prop :=
  ∀ s t : State, s.faulted = true → (∀ m, nextAction s ≠ .reset m) → step s = .next t →
    t.faulted = true ∧ t.cause = s.cause ∧ t.finfo = s.finfo

/-! ## Reset -/

/-- R43, R230, R231, R233: what a reset leaves, under every mask of available lines. Nothing is said of the level of an
unavailable line, which R43 leaves unspecified and the model leaves free (log 4). -/
def Obligations.ResetLeavesTableValues : Prop :=
  ∀ (s : State) (linesOk : BitVec 7),
    ∃ t, runAction (.reset linesOk) s = .next t
      ∧ (linesOk.getLsbD 0 = true → t.levels.adcCs = true)
      ∧ (linesOk.getLsbD 1 = true → t.levels.adcClk = false)
      ∧ (linesOk.getLsbD 2 = true → t.levels.adcDin = false)
      ∧ (linesOk.getLsbD 4 = true → t.levels.srData = false)
      ∧ (linesOk.getLsbD 5 = true → t.levels.srShclk = false)
      ∧ (linesOk.getLsbD 6 = true → t.levels.srLatch = false)
      ∧ t.dark = false ∧ t.result = 0#32
      ∧ t.faulted = decide (linesOk ≠ 0x7F#7)
      ∧ t.cause = (if linesOk = 0x7F#7 then 0#32 else 5#32)
      ∧ t.finfo = BitVec.ofNat 32 (127 - linesOk.toNat)
      ∧ t.srActive = false ∧ t.srCur = 0#4 ∧ t.srU = 0#8 ∧ t.srT = 0#8 ∧ t.srDue = 0
      ∧ t.fq = [] ∧ t.now = 0 ∧ t.trace = []

/-! ## The register block -/

/-- R28: a read of STATUS returns its fields in their places and has no side effect; the queue's count is exact where the queue
has at most the 15 frames `FQ_DEPTH` allows. That the read is recorded in `env.replies` is the model's (log 11). -/
def Obligations.StatusReadGivesFields : Prop :=
  ∀ s : State, s.fq.length ≤ 15 →
    runAction (.host (.read 0x08 32)) s = .next (reply 0x08
      (BitVec.ofNat 32 (s.srActive.toNat + 2 * s.dark.toNat + 4 * s.faulted.toNat + 16 * s.fq.length
        + 256 * s.srCur.toNat)) s)

/-- R27, R29 to R31, R51, R56: what a read of each register returns, and that it changes nothing of BBPE (that the
host's value is recorded in `env.replies` is the model's, log 11). -/
def Obligations.RegisterReads : Prop :=
  ∀ s : State,
    runAction (.host (.read 0x00 32)) s = .next (reply 0x00 0#32 s)
      ∧ runAction (.host (.read 0x04 32)) s = .next (reply 0x04 s.result s)
      ∧ runAction (.host (.read 0x0C 32)) s = .next (reply 0x0C s.cause s)
      ∧ runAction (.host (.read 0x10 32)) s = .next (reply 0x10 s.finfo s)
      ∧ ∀ off v, { reply off v s with env := s.env } = s

/-- R53, R54: reserved offsets read 0 and ignore writes, the read-only registers ignore writes, and CMD reads 0; none of it
faults. That a read is recorded in `env.replies` is the model's (log 11). -/
def Obligations.HarmlessAccesses : Prop :=
  ∀ (s : State) (v : Word),
    (∀ off ∈ [0x14, 0x18, 0x1C],
      runAction (.host (.read off 32)) s = .next (reply off 0#32 s)
        ∧ runAction (.host (.write off 32 v)) s = .next s)
      ∧ (∀ off ∈ [0x04, 0x08, 0x0C, 0x10], runAction (.host (.write off 32 v)) s = .next s)
      ∧ runAction (.host (.read 0x00 32)) s = .next (reply 0x00 0#32 s)

/-- R51, R52: an access in the window of another width, or at an offset that is no multiple of 4, is refused; an access outside
the window is none of BBPE's and stops the model with the fault the model names for it (log 10). -/
def Obligations.AccessesWithoutMeaningStop : Prop :=
  ∀ (s : State) (off width : Nat) (v : Word),
    (0x20 ≤ off →
      runAction (.host (.read off width)) s = .fault (.outsideWindow off)
        ∧ runAction (.host (.write off width v)) s = .fault (.outsideWindow off))
    ∧ (off < 0x20 → width ≠ 32 →
        runAction (.host (.read off width)) s = .refused (.accessWidth width)
          ∧ runAction (.host (.write off width v)) s = .refused (.accessWidth width))
    ∧ (off < 0x20 → width = 32 → off % 4 ≠ 0 →
        runAction (.host (.read off width)) s = .refused (.misalignedOffset off)
          ∧ runAction (.host (.write off width v)) s = .refused (.misalignedOffset off))

/-- R50, R51, R59: the window is the 32 bytes at `BBPE_BASE`. -/
def Obligations.WindowIsThirtyTwoBytes : Prop :=
  ∀ addr off : Nat, windowOffset addr = some off ↔ addr = Config.bbpeBase + off ∧ off < 32

/-! ## Whole-machine rules -/

/-- R42, with R146, R111, R200 and R220: the invariant holds at reset. -/
def Obligations.InvHoldsAtReset : Prop := State.reset.Inv

/-- R42, with R146, R111, R200 and R220: every step keeps the invariant, resets with missing lines included. -/
def Obligations.StepKeepsInv : Prop :=
  ∀ s t : State, s.Inv → step s = .next t → t.Inv

/-- R26: only a SETDARK that is run changes DARK, and it changes it to its operand. -/
def Obligations.OnlySetdarkChangesDark : Prop :=
  ∀ s t : State, (∀ m, nextAction s ≠ .reset m) → step s = .next t → t.dark ≠ s.dark →
    s.faulted = false
      ∧ ∃ w, nextAction s = .host (.write 0x00 32 w) ∧ decode w = .ok (.setdark t.dark)

/-- R27: only SAMPLE and PATFOR write RESULT. -/
def Obligations.OnlySampleAndPatforChangeResult : Prop :=
  ∀ s t : State, (∀ m, nextAction s ≠ .reset m) → step s = .next t → t.result ≠ s.result →
    s.faulted = false
      ∧ ∃ w a, nextAction s = .host (.write 0x00 32 w) ∧ (decode w = .ok (.sample a) ∨ decode w = .ok (.patfor a))

/-- R36: only TIME advances NOW, by one, and no command writes it. -/
def Obligations.OnlyTimeAdvancesNow : Prop :=
  ∀ s t : State, (∀ m, nextAction s ≠ .reset m) → step s = .next t →
    t.now = s.now + (if nextAction s = .time then 1 else 0)

/-- R222: a TIME step is always enabled, adds one to NOW, changes no other state and appends no event. -/
def Obligations.TimeStepAlwaysEnabled : Prop :=
  ∀ s : State, runAction .time s = .next { s with now := s.now + 1 }

/-- R24, R40, R108: a step appends one contiguous block to the trace: a SAMPLE's events, all on the ADC lines; or an SR_STEP's, all
on the display lines; or none. -/
def Obligations.LinesHaveOneOwner : Prop :=
  ∀ s t : State, (∀ m, nextAction s ≠ .reset m) → step s = .next t →
    ∃ block, t.trace = s.trace ++ block
      ∧ (block = []
        ∨ (nextAction s = .seq ∧ srEnabled s = true ∧ block.all (fun e => !e.onAdc) = true)
        ∨ (∃ w ch, nextAction s = .host (.write 0x00 32 w) ∧ decode w = .ok (.sample ch)
            ∧ block.all (fun e => e.onAdc) = true))

/-- R25: the level of every output line is the level last written to it: after a step, the last write of the block the step
appended, or what it was where the block writes the line nowhere. -/
def Obligations.LevelIsLastWrite : Prop :=
  ∀ s t : State, (∀ m, nextAction s ≠ .reset m) → step s = .next t →
    ∃ block, t.trace = s.trace ++ block
      ∧ ∀ l, levelOf l t.levels =
          block.foldl (fun v e => match e with
            | .W m b => if m = l then b else v
            | .R _ _ => v) (levelOf l s.levels)
end

