-- ==== Sys2Proof/Laws/State.lean ====
section
/-! SUPPORT. One lemma per field per named update of the state: what each operation writes and what it leaves, so that no later
proof unfolds a record update. -/

namespace Sys2Proof.Machine

variable (s : State)

/-! ## lineWrite -/

@[simp] theorem lineWrite_levels (l : OutLine) (v : Level) : (lineWrite l v s).levels = withLevel l v s.levels := rfl
@[simp] theorem lineWrite_dark (l : OutLine) (v : Level) : (lineWrite l v s).dark = s.dark := rfl
@[simp] theorem lineWrite_result (l : OutLine) (v : Level) : (lineWrite l v s).result = s.result := rfl
@[simp] theorem lineWrite_faulted (l : OutLine) (v : Level) : (lineWrite l v s).faulted = s.faulted := rfl
@[simp] theorem lineWrite_cause (l : OutLine) (v : Level) : (lineWrite l v s).cause = s.cause := rfl
@[simp] theorem lineWrite_finfo (l : OutLine) (v : Level) : (lineWrite l v s).finfo = s.finfo := rfl
@[simp] theorem lineWrite_srActive (l : OutLine) (v : Level) : (lineWrite l v s).srActive = s.srActive := rfl
@[simp] theorem lineWrite_srU (l : OutLine) (v : Level) : (lineWrite l v s).srU = s.srU := rfl
@[simp] theorem lineWrite_srT (l : OutLine) (v : Level) : (lineWrite l v s).srT = s.srT := rfl
@[simp] theorem lineWrite_srCur (l : OutLine) (v : Level) : (lineWrite l v s).srCur = s.srCur := rfl
@[simp] theorem lineWrite_srDue (l : OutLine) (v : Level) : (lineWrite l v s).srDue = s.srDue := rfl
@[simp] theorem lineWrite_fq (l : OutLine) (v : Level) : (lineWrite l v s).fq = s.fq := rfl
@[simp] theorem lineWrite_now (l : OutLine) (v : Level) : (lineWrite l v s).now = s.now := rfl
@[simp] theorem lineWrite_trace (l : OutLine) (v : Level) : (lineWrite l v s).trace = s.trace ++ [.W l v] := rfl
@[simp] theorem lineWrite_env (l : OutLine) (v : Level) : (lineWrite l v s).env = s.env := rfl

/-! ## writeResult -/

@[simp] theorem writeResult_levels (v : Word) : (writeResult v s).levels = s.levels := rfl
@[simp] theorem writeResult_dark (v : Word) : (writeResult v s).dark = s.dark := rfl
@[simp] theorem writeResult_result (v : Word) : (writeResult v s).result = v := rfl
@[simp] theorem writeResult_faulted (v : Word) : (writeResult v s).faulted = s.faulted := rfl
@[simp] theorem writeResult_cause (v : Word) : (writeResult v s).cause = s.cause := rfl
@[simp] theorem writeResult_finfo (v : Word) : (writeResult v s).finfo = s.finfo := rfl
@[simp] theorem writeResult_srActive (v : Word) : (writeResult v s).srActive = s.srActive := rfl
@[simp] theorem writeResult_srU (v : Word) : (writeResult v s).srU = s.srU := rfl
@[simp] theorem writeResult_srT (v : Word) : (writeResult v s).srT = s.srT := rfl
@[simp] theorem writeResult_srCur (v : Word) : (writeResult v s).srCur = s.srCur := rfl
@[simp] theorem writeResult_srDue (v : Word) : (writeResult v s).srDue = s.srDue := rfl
@[simp] theorem writeResult_fq (v : Word) : (writeResult v s).fq = s.fq := rfl
@[simp] theorem writeResult_now (v : Word) : (writeResult v s).now = s.now := rfl
@[simp] theorem writeResult_trace (v : Word) : (writeResult v s).trace = s.trace := rfl
@[simp] theorem writeResult_env (v : Word) : (writeResult v s).env = s.env := rfl

/-! ## writeDark -/

@[simp] theorem writeDark_levels (d : Level) : (writeDark d s).levels = s.levels := rfl
@[simp] theorem writeDark_dark (d : Level) : (writeDark d s).dark = d := rfl
@[simp] theorem writeDark_result (d : Level) : (writeDark d s).result = s.result := rfl
@[simp] theorem writeDark_faulted (d : Level) : (writeDark d s).faulted = s.faulted := rfl
@[simp] theorem writeDark_cause (d : Level) : (writeDark d s).cause = s.cause := rfl
@[simp] theorem writeDark_finfo (d : Level) : (writeDark d s).finfo = s.finfo := rfl
@[simp] theorem writeDark_srActive (d : Level) : (writeDark d s).srActive = s.srActive := rfl
@[simp] theorem writeDark_srU (d : Level) : (writeDark d s).srU = s.srU := rfl
@[simp] theorem writeDark_srT (d : Level) : (writeDark d s).srT = s.srT := rfl
@[simp] theorem writeDark_srCur (d : Level) : (writeDark d s).srCur = s.srCur := rfl
@[simp] theorem writeDark_srDue (d : Level) : (writeDark d s).srDue = s.srDue := rfl
@[simp] theorem writeDark_fq (d : Level) : (writeDark d s).fq = s.fq := rfl
@[simp] theorem writeDark_now (d : Level) : (writeDark d s).now = s.now := rfl
@[simp] theorem writeDark_trace (d : Level) : (writeDark d s).trace = s.trace := rfl
@[simp] theorem writeDark_env (d : Level) : (writeDark d s).env = s.env := rfl

/-! ## raiseFault -/

@[simp] theorem raiseFault_levels (c : Cause) (info : Word) : (raiseFault c info s).levels = s.levels := rfl
@[simp] theorem raiseFault_dark (c : Cause) (info : Word) : (raiseFault c info s).dark = s.dark := rfl
@[simp] theorem raiseFault_result (c : Cause) (info : Word) : (raiseFault c info s).result = s.result := rfl
@[simp] theorem raiseFault_faulted (c : Cause) (info : Word) : (raiseFault c info s).faulted = true := rfl
@[simp] theorem raiseFault_cause (c : Cause) (info : Word) : (raiseFault c info s).cause = (causeCode c).zeroExtend 32 := rfl
@[simp] theorem raiseFault_finfo (c : Cause) (info : Word) : (raiseFault c info s).finfo = info := rfl
@[simp] theorem raiseFault_srActive (c : Cause) (info : Word) : (raiseFault c info s).srActive = s.srActive := rfl
@[simp] theorem raiseFault_srU (c : Cause) (info : Word) : (raiseFault c info s).srU = s.srU := rfl
@[simp] theorem raiseFault_srT (c : Cause) (info : Word) : (raiseFault c info s).srT = s.srT := rfl
@[simp] theorem raiseFault_srCur (c : Cause) (info : Word) : (raiseFault c info s).srCur = s.srCur := rfl
@[simp] theorem raiseFault_srDue (c : Cause) (info : Word) : (raiseFault c info s).srDue = s.srDue := rfl
@[simp] theorem raiseFault_fq (c : Cause) (info : Word) : (raiseFault c info s).fq = s.fq := rfl
@[simp] theorem raiseFault_now (c : Cause) (info : Word) : (raiseFault c info s).now = s.now := rfl
@[simp] theorem raiseFault_trace (c : Cause) (info : Word) : (raiseFault c info s).trace = s.trace := rfl
@[simp] theorem raiseFault_env (c : Cause) (info : Word) : (raiseFault c info s).env = s.env := rfl

/-! ## arm -/

@[simp] theorem arm_levels (d : Nat) : (arm d s).levels = s.levels := rfl
@[simp] theorem arm_dark (d : Nat) : (arm d s).dark = s.dark := rfl
@[simp] theorem arm_result (d : Nat) : (arm d s).result = s.result := rfl
@[simp] theorem arm_faulted (d : Nat) : (arm d s).faulted = s.faulted := rfl
@[simp] theorem arm_cause (d : Nat) : (arm d s).cause = s.cause := rfl
@[simp] theorem arm_finfo (d : Nat) : (arm d s).finfo = s.finfo := rfl
@[simp] theorem arm_srActive (d : Nat) : (arm d s).srActive = s.srActive := rfl
@[simp] theorem arm_srU (d : Nat) : (arm d s).srU = s.srU := rfl
@[simp] theorem arm_srT (d : Nat) : (arm d s).srT = s.srT := rfl
@[simp] theorem arm_srCur (d : Nat) : (arm d s).srCur = s.srCur := rfl
@[simp] theorem arm_srDue (d : Nat) : (arm d s).srDue = s.now + d := rfl
@[simp] theorem arm_fq (d : Nat) : (arm d s).fq = s.fq := rfl
@[simp] theorem arm_now (d : Nat) : (arm d s).now = s.now := rfl
@[simp] theorem arm_trace (d : Nat) : (arm d s).trace = s.trace := rfl
@[simp] theorem arm_env (d : Nat) : (arm d s).env = s.env := rfl

/-! ## startFrame -/

@[simp] theorem startFrame_levels (u t : Byte) : (startFrame u t s).levels = s.levels := rfl
@[simp] theorem startFrame_dark (u t : Byte) : (startFrame u t s).dark = s.dark := rfl
@[simp] theorem startFrame_result (u t : Byte) : (startFrame u t s).result = s.result := rfl
@[simp] theorem startFrame_faulted (u t : Byte) : (startFrame u t s).faulted = s.faulted := rfl
@[simp] theorem startFrame_cause (u t : Byte) : (startFrame u t s).cause = s.cause := rfl
@[simp] theorem startFrame_finfo (u t : Byte) : (startFrame u t s).finfo = s.finfo := rfl
@[simp] theorem startFrame_srActive (u t : Byte) : (startFrame u t s).srActive = true := rfl
@[simp] theorem startFrame_srU (u t : Byte) : (startFrame u t s).srU = u := rfl
@[simp] theorem startFrame_srT (u t : Byte) : (startFrame u t s).srT = t := rfl
@[simp] theorem startFrame_srCur (u t : Byte) : (startFrame u t s).srCur = 0#4 := rfl
@[simp] theorem startFrame_srDue (u t : Byte) : (startFrame u t s).srDue = s.now + Config.bitDelay := rfl
@[simp] theorem startFrame_fq (u t : Byte) : (startFrame u t s).fq = s.fq := rfl
@[simp] theorem startFrame_now (u t : Byte) : (startFrame u t s).now = s.now := rfl
@[simp] theorem startFrame_trace (u t : Byte) : (startFrame u t s).trace = s.trace := rfl
@[simp] theorem startFrame_env (u t : Byte) : (startFrame u t s).env = s.env := rfl

/-! ## pushFrame -/

@[simp] theorem pushFrame_levels (u t : Byte) : (pushFrame u t s).levels = s.levels := rfl
@[simp] theorem pushFrame_dark (u t : Byte) : (pushFrame u t s).dark = s.dark := rfl
@[simp] theorem pushFrame_result (u t : Byte) : (pushFrame u t s).result = s.result := rfl
@[simp] theorem pushFrame_faulted (u t : Byte) : (pushFrame u t s).faulted = s.faulted := rfl
@[simp] theorem pushFrame_cause (u t : Byte) : (pushFrame u t s).cause = s.cause := rfl
@[simp] theorem pushFrame_finfo (u t : Byte) : (pushFrame u t s).finfo = s.finfo := rfl
@[simp] theorem pushFrame_srActive (u t : Byte) : (pushFrame u t s).srActive = s.srActive := rfl
@[simp] theorem pushFrame_srU (u t : Byte) : (pushFrame u t s).srU = s.srU := rfl
@[simp] theorem pushFrame_srT (u t : Byte) : (pushFrame u t s).srT = s.srT := rfl
@[simp] theorem pushFrame_srCur (u t : Byte) : (pushFrame u t s).srCur = s.srCur := rfl
@[simp] theorem pushFrame_srDue (u t : Byte) : (pushFrame u t s).srDue = s.srDue := rfl
@[simp] theorem pushFrame_fq (u t : Byte) : (pushFrame u t s).fq = s.fq ++ [{ u := u, t := t }] := rfl
@[simp] theorem pushFrame_now (u t : Byte) : (pushFrame u t s).now = s.now := rfl
@[simp] theorem pushFrame_trace (u t : Byte) : (pushFrame u t s).trace = s.trace := rfl
@[simp] theorem pushFrame_env (u t : Byte) : (pushFrame u t s).env = s.env := rfl

/-! ## advanceCursor -/

@[simp] theorem advanceCursor_levels : (advanceCursor s).levels = s.levels := rfl
@[simp] theorem advanceCursor_dark : (advanceCursor s).dark = s.dark := rfl
@[simp] theorem advanceCursor_result : (advanceCursor s).result = s.result := rfl
@[simp] theorem advanceCursor_faulted : (advanceCursor s).faulted = s.faulted := rfl
@[simp] theorem advanceCursor_cause : (advanceCursor s).cause = s.cause := rfl
@[simp] theorem advanceCursor_finfo : (advanceCursor s).finfo = s.finfo := rfl
@[simp] theorem advanceCursor_srActive : (advanceCursor s).srActive = s.srActive := rfl
@[simp] theorem advanceCursor_srU : (advanceCursor s).srU = s.srU := rfl
@[simp] theorem advanceCursor_srT : (advanceCursor s).srT = s.srT := rfl
@[simp] theorem advanceCursor_srCur : (advanceCursor s).srCur = s.srCur + 1#4 := rfl
@[simp] theorem advanceCursor_srDue : (advanceCursor s).srDue = s.now + Config.bitDelay := rfl
@[simp] theorem advanceCursor_fq : (advanceCursor s).fq = s.fq := rfl
@[simp] theorem advanceCursor_now : (advanceCursor s).now = s.now := rfl
@[simp] theorem advanceCursor_trace : (advanceCursor s).trace = s.trace := rfl
@[simp] theorem advanceCursor_env : (advanceCursor s).env = s.env := rfl

/-! ## timeStep -/

@[simp] theorem timeStep_levels : (timeStep s).levels = s.levels := rfl
@[simp] theorem timeStep_dark : (timeStep s).dark = s.dark := rfl
@[simp] theorem timeStep_result : (timeStep s).result = s.result := rfl
@[simp] theorem timeStep_faulted : (timeStep s).faulted = s.faulted := rfl
@[simp] theorem timeStep_cause : (timeStep s).cause = s.cause := rfl
@[simp] theorem timeStep_finfo : (timeStep s).finfo = s.finfo := rfl
@[simp] theorem timeStep_srActive : (timeStep s).srActive = s.srActive := rfl
@[simp] theorem timeStep_srU : (timeStep s).srU = s.srU := rfl
@[simp] theorem timeStep_srT : (timeStep s).srT = s.srT := rfl
@[simp] theorem timeStep_srCur : (timeStep s).srCur = s.srCur := rfl
@[simp] theorem timeStep_srDue : (timeStep s).srDue = s.srDue := rfl
@[simp] theorem timeStep_fq : (timeStep s).fq = s.fq := rfl
@[simp] theorem timeStep_now : (timeStep s).now = s.now + 1 := rfl
@[simp] theorem timeStep_trace : (timeStep s).trace = s.trace := rfl
@[simp] theorem timeStep_env : (timeStep s).env = s.env := rfl

/-! ## reply -/

@[simp] theorem reply_levels (off : Nat) (v : Word) : (reply off v s).levels = s.levels := rfl
@[simp] theorem reply_dark (off : Nat) (v : Word) : (reply off v s).dark = s.dark := rfl
@[simp] theorem reply_result (off : Nat) (v : Word) : (reply off v s).result = s.result := rfl
@[simp] theorem reply_faulted (off : Nat) (v : Word) : (reply off v s).faulted = s.faulted := rfl
@[simp] theorem reply_cause (off : Nat) (v : Word) : (reply off v s).cause = s.cause := rfl
@[simp] theorem reply_finfo (off : Nat) (v : Word) : (reply off v s).finfo = s.finfo := rfl
@[simp] theorem reply_srActive (off : Nat) (v : Word) : (reply off v s).srActive = s.srActive := rfl
@[simp] theorem reply_srU (off : Nat) (v : Word) : (reply off v s).srU = s.srU := rfl
@[simp] theorem reply_srT (off : Nat) (v : Word) : (reply off v s).srT = s.srT := rfl
@[simp] theorem reply_srCur (off : Nat) (v : Word) : (reply off v s).srCur = s.srCur := rfl
@[simp] theorem reply_srDue (off : Nat) (v : Word) : (reply off v s).srDue = s.srDue := rfl
@[simp] theorem reply_fq (off : Nat) (v : Word) : (reply off v s).fq = s.fq := rfl
@[simp] theorem reply_now (off : Nat) (v : Word) : (reply off v s).now = s.now := rfl
@[simp] theorem reply_trace (off : Nat) (v : Word) : (reply off v s).trace = s.trace := rfl
@[simp] theorem reply_env (off : Nat) (v : Word) : (reply off v s).env = { s.env with replies := s.env.replies ++ [{ off := off, value := v }] } := rfl

/-! ## lineUpCommand -/

@[simp] theorem lineUpCommand_levels (w : Word) : (lineUpCommand w s).levels = s.levels := rfl
@[simp] theorem lineUpCommand_dark (w : Word) : (lineUpCommand w s).dark = s.dark := rfl
@[simp] theorem lineUpCommand_result (w : Word) : (lineUpCommand w s).result = s.result := rfl
@[simp] theorem lineUpCommand_faulted (w : Word) : (lineUpCommand w s).faulted = s.faulted := rfl
@[simp] theorem lineUpCommand_cause (w : Word) : (lineUpCommand w s).cause = s.cause := rfl
@[simp] theorem lineUpCommand_finfo (w : Word) : (lineUpCommand w s).finfo = s.finfo := rfl
@[simp] theorem lineUpCommand_srActive (w : Word) : (lineUpCommand w s).srActive = s.srActive := rfl
@[simp] theorem lineUpCommand_srU (w : Word) : (lineUpCommand w s).srU = s.srU := rfl
@[simp] theorem lineUpCommand_srT (w : Word) : (lineUpCommand w s).srT = s.srT := rfl
@[simp] theorem lineUpCommand_srCur (w : Word) : (lineUpCommand w s).srCur = s.srCur := rfl
@[simp] theorem lineUpCommand_srDue (w : Word) : (lineUpCommand w s).srDue = s.srDue := rfl
@[simp] theorem lineUpCommand_fq (w : Word) : (lineUpCommand w s).fq = s.fq := rfl
@[simp] theorem lineUpCommand_now (w : Word) : (lineUpCommand w s).now = s.now := rfl
@[simp] theorem lineUpCommand_trace (w : Word) : (lineUpCommand w s).trace = s.trace := rfl
@[simp] theorem lineUpCommand_env (w : Word) : (lineUpCommand w s).env = { s.env with inputs := .host (.write 0x00 32 w) :: s.env.inputs } := rfl

/-! ## pulse -/

@[simp] theorem pulse_levels (l : OutLine) : (pulse l s).levels = withLevel l false (withLevel l true s.levels) := rfl
@[simp] theorem pulse_trace (l : OutLine) : (pulse l s).trace = s.trace ++ [.W l true, .W l false] := by
  simp [pulse]
@[simp] theorem pulse_dark (l : OutLine) : (pulse l s).dark = s.dark := rfl
@[simp] theorem pulse_result (l : OutLine) : (pulse l s).result = s.result := rfl
@[simp] theorem pulse_faulted (l : OutLine) : (pulse l s).faulted = s.faulted := rfl
@[simp] theorem pulse_cause (l : OutLine) : (pulse l s).cause = s.cause := rfl
@[simp] theorem pulse_finfo (l : OutLine) : (pulse l s).finfo = s.finfo := rfl
@[simp] theorem pulse_srActive (l : OutLine) : (pulse l s).srActive = s.srActive := rfl
@[simp] theorem pulse_srU (l : OutLine) : (pulse l s).srU = s.srU := rfl
@[simp] theorem pulse_srT (l : OutLine) : (pulse l s).srT = s.srT := rfl
@[simp] theorem pulse_srCur (l : OutLine) : (pulse l s).srCur = s.srCur := rfl
@[simp] theorem pulse_srDue (l : OutLine) : (pulse l s).srDue = s.srDue := rfl
@[simp] theorem pulse_fq (l : OutLine) : (pulse l s).fq = s.fq := rfl
@[simp] theorem pulse_now (l : OutLine) : (pulse l s).now = s.now := rfl
@[simp] theorem pulse_env (l : OutLine) : (pulse l s).env = s.env := rfl

/-! ## shiftOut -/

@[simp] theorem shiftOut_levels (b : Level) :
    (shiftOut b s).levels = withLevel .srShclk false (withLevel .srShclk true (withLevel .srData b s.levels)) := rfl
@[simp] theorem shiftOut_trace (b : Level) : (shiftOut b s).trace = s.trace ++ frameBitEvents b := by
  simp [shiftOut, frameBitEvents]
@[simp] theorem shiftOut_dark (b : Level) : (shiftOut b s).dark = s.dark := rfl
@[simp] theorem shiftOut_result (b : Level) : (shiftOut b s).result = s.result := rfl
@[simp] theorem shiftOut_faulted (b : Level) : (shiftOut b s).faulted = s.faulted := rfl
@[simp] theorem shiftOut_cause (b : Level) : (shiftOut b s).cause = s.cause := rfl
@[simp] theorem shiftOut_finfo (b : Level) : (shiftOut b s).finfo = s.finfo := rfl
@[simp] theorem shiftOut_srActive (b : Level) : (shiftOut b s).srActive = s.srActive := rfl
@[simp] theorem shiftOut_srU (b : Level) : (shiftOut b s).srU = s.srU := rfl
@[simp] theorem shiftOut_srT (b : Level) : (shiftOut b s).srT = s.srT := rfl
@[simp] theorem shiftOut_srCur (b : Level) : (shiftOut b s).srCur = s.srCur := rfl
@[simp] theorem shiftOut_srDue (b : Level) : (shiftOut b s).srDue = s.srDue := rfl
@[simp] theorem shiftOut_fq (b : Level) : (shiftOut b s).fq = s.fq := rfl
@[simp] theorem shiftOut_now (b : Level) : (shiftOut b s).now = s.now := rfl
@[simp] theorem shiftOut_env (b : Level) : (shiftOut b s).env = s.env := rfl

/-! ## Reading ADC_DOUT and choosing the next action touch nothing but the environment -/

@[simp] theorem consumeDout_levels : (consumeDout s).levels = s.levels := by unfold consumeDout; split <;> rfl
@[simp] theorem consumeDout_dark : (consumeDout s).dark = s.dark := by unfold consumeDout; split <;> rfl
@[simp] theorem consumeDout_result : (consumeDout s).result = s.result := by unfold consumeDout; split <;> rfl
@[simp] theorem consumeDout_faulted : (consumeDout s).faulted = s.faulted := by unfold consumeDout; split <;> rfl
@[simp] theorem consumeDout_cause : (consumeDout s).cause = s.cause := by unfold consumeDout; split <;> rfl
@[simp] theorem consumeDout_finfo : (consumeDout s).finfo = s.finfo := by unfold consumeDout; split <;> rfl
@[simp] theorem consumeDout_srActive : (consumeDout s).srActive = s.srActive := by unfold consumeDout; split <;> rfl
@[simp] theorem consumeDout_srU : (consumeDout s).srU = s.srU := by unfold consumeDout; split <;> rfl
@[simp] theorem consumeDout_srT : (consumeDout s).srT = s.srT := by unfold consumeDout; split <;> rfl
@[simp] theorem consumeDout_srCur : (consumeDout s).srCur = s.srCur := by unfold consumeDout; split <;> rfl
@[simp] theorem consumeDout_srDue : (consumeDout s).srDue = s.srDue := by unfold consumeDout; split <;> rfl
@[simp] theorem consumeDout_fq : (consumeDout s).fq = s.fq := by unfold consumeDout; split <;> rfl
@[simp] theorem consumeDout_now : (consumeDout s).now = s.now := by unfold consumeDout; split <;> rfl
@[simp] theorem consumeDout_trace : (consumeDout s).trace = s.trace := by unfold consumeDout; split <;> rfl
@[simp] theorem consumeDout_replies : (consumeDout s).env.replies = s.env.replies := by unfold consumeDout; split <;> rfl
@[simp] theorem consumeDout_inputs : (consumeDout s).env.inputs = s.env.inputs := by unfold consumeDout; split <;> rfl

@[simp] theorem consumeAction_levels : (consumeAction s).levels = s.levels := by unfold consumeAction; split <;> rfl
@[simp] theorem consumeAction_dark : (consumeAction s).dark = s.dark := by unfold consumeAction; split <;> rfl
@[simp] theorem consumeAction_result : (consumeAction s).result = s.result := by unfold consumeAction; split <;> rfl
@[simp] theorem consumeAction_faulted : (consumeAction s).faulted = s.faulted := by unfold consumeAction; split <;> rfl
@[simp] theorem consumeAction_cause : (consumeAction s).cause = s.cause := by unfold consumeAction; split <;> rfl
@[simp] theorem consumeAction_finfo : (consumeAction s).finfo = s.finfo := by unfold consumeAction; split <;> rfl
@[simp] theorem consumeAction_srActive : (consumeAction s).srActive = s.srActive := by unfold consumeAction; split <;> rfl
@[simp] theorem consumeAction_srU : (consumeAction s).srU = s.srU := by unfold consumeAction; split <;> rfl
@[simp] theorem consumeAction_srT : (consumeAction s).srT = s.srT := by unfold consumeAction; split <;> rfl
@[simp] theorem consumeAction_srCur : (consumeAction s).srCur = s.srCur := by unfold consumeAction; split <;> rfl
@[simp] theorem consumeAction_srDue : (consumeAction s).srDue = s.srDue := by unfold consumeAction; split <;> rfl
@[simp] theorem consumeAction_fq : (consumeAction s).fq = s.fq := by unfold consumeAction; split <;> rfl
@[simp] theorem consumeAction_now : (consumeAction s).now = s.now := by unfold consumeAction; split <;> rfl
@[simp] theorem consumeAction_trace : (consumeAction s).trace = s.trace := by unfold consumeAction; split <;> rfl
@[simp] theorem consumeAction_replies : (consumeAction s).env.replies = s.env.replies := by unfold consumeAction; split <;> rfl
@[simp] theorem consumeAction_dout : (consumeAction s).env.dout = s.env.dout := by unfold consumeAction; split <;> rfl

@[simp] theorem lineRead_trace : (lineRead s).trace = s.trace ++ [.R .adcDout (nextDout s)] := rfl
@[simp] theorem lineRead_env : (lineRead s).env = (consumeDout s).env := rfl
@[simp] theorem lineRead_levels : (lineRead s).levels = s.levels := by simp [lineRead]
@[simp] theorem lineRead_dark : (lineRead s).dark = s.dark := by simp [lineRead]
@[simp] theorem lineRead_result : (lineRead s).result = s.result := by simp [lineRead]
@[simp] theorem lineRead_faulted : (lineRead s).faulted = s.faulted := by simp [lineRead]
@[simp] theorem lineRead_cause : (lineRead s).cause = s.cause := by simp [lineRead]
@[simp] theorem lineRead_finfo : (lineRead s).finfo = s.finfo := by simp [lineRead]
@[simp] theorem lineRead_srActive : (lineRead s).srActive = s.srActive := by simp [lineRead]
@[simp] theorem lineRead_srU : (lineRead s).srU = s.srU := by simp [lineRead]
@[simp] theorem lineRead_srT : (lineRead s).srT = s.srT := by simp [lineRead]
@[simp] theorem lineRead_srCur : (lineRead s).srCur = s.srCur := by simp [lineRead]
@[simp] theorem lineRead_srDue : (lineRead s).srDue = s.srDue := by simp [lineRead]
@[simp] theorem lineRead_fq : (lineRead s).fq = s.fq := by simp [lineRead]
@[simp] theorem lineRead_now : (lineRead s).now = s.now := by simp [lineRead]

/-! ## Levels -/

@[simp] theorem levelOf_withLevel (l m : OutLine) (v : Level) (lv : Levels) :
    levelOf m (withLevel l v lv) = if m = l then v else levelOf m lv := by
  cases l <;> cases m <;> rfl

/-- Two sets of levels are equal where every line's level is. -/
theorem levels_ext (a b : Levels) (h : ∀ l, levelOf l a = levelOf l b) : a = b := by
  cases a; cases b
  have h0 := h .adcCs; have h1 := h .adcClk; have h2 := h .adcDin
  have h3 := h .srData; have h4 := h .srShclk; have h5 := h .srLatch
  simp_all [levelOf]

end Sys2Proof.Machine
end

