-- ==== Sys2Proof/Laws/Adc.lean ====
section
/-! SUPPORT. What the ADC sampler's shared operations do: reading ADC_DOUT, sending the command bits, reading the result bits. -/

namespace Sys2Proof.Machine

variable (s : State)

/-! ## The levels ENV supplies -/

/-- What ENV supplies at the next read depends on the environment alone. -/
theorem nextDout_of_env {s t : State} (h : s.env = t.env) : nextDout s = nextDout t := by
  unfold nextDout; rw [h]

/-- What ENV is left with after a read depends on the environment alone. -/
theorem consumeDout_of_env {s t : State} (h : s.env = t.env) : (consumeDout s).env = (consumeDout t).env := by
  unfold consumeDout; rw [h]; split <;> simp_all

/-- The coming draws depend on the environment alone. -/
theorem doutDraws_of_env (n : Nat) : ∀ {s t : State}, s.env = t.env → doutDraws n s = doutDraws n t := by
  induction n with
  | zero => intro s t _; rfl
  | succ n ih =>
    intro s t h
    simp only [doutDraws]
    rw [nextDout_of_env h, ih (consumeDout_of_env h)]

/-- The environment after `n` reads depends on the environment alone. -/
theorem consumeDouts_of_env (n : Nat) : ∀ {s t : State}, s.env = t.env →
    (consumeDouts n s).env = (consumeDouts n t).env := by
  induction n with
  | zero => intro s t h; exact h
  | succ n ih => intro s t h; exact ih (consumeDout_of_env h)

@[simp] theorem doutDraws_length (n : Nat) : ∀ s, (doutDraws n s).length = n := by
  induction n with
  | zero => intro s; rfl
  | succ n ih => intro s; simp [doutDraws, ih]

@[simp] theorem consumeDouts_inputs (n : Nat) : ∀ s, (consumeDouts n s).env.inputs = s.env.inputs := by
  induction n with
  | zero => intro s; rfl
  | succ n ih => intro s; simp [consumeDouts, ih]

@[simp] theorem consumeDouts_replies (n : Nat) : ∀ s, (consumeDouts n s).env.replies = s.env.replies := by
  induction n with
  | zero => intro s; rfl
  | succ n ih => intro s; simp [consumeDouts, ih]

/-- Levels that ENV has lined up are what the reads return. -/
theorem doutDraws_of_lined_up (bits rest : List Level) :
    ∀ s : State, s.env.dout = bits ++ rest → doutDraws bits.length s = bits := by
  induction bits with
  | nil => intro s _; rfl
  | cons b bits ih =>
    intro s h
    simp only [List.length_cons, doutDraws, nextDout, consumeDout, h, List.cons_append]
    rw [ih _ rfl]

/-! ## What the sampler leaves alone -/

/-- From `s` to `t` nothing changed but the line levels, the trace, RESULT and the environment, and no display line (R114). -/
structure OnlyAdc (s t : State) : Prop where
  dark : t.dark = s.dark
  faulted : t.faulted = s.faulted
  cause : t.cause = s.cause
  finfo : t.finfo = s.finfo
  srActive : t.srActive = s.srActive
  srU : t.srU = s.srU
  srT : t.srT = s.srT
  srCur : t.srCur = s.srCur
  srDue : t.srDue = s.srDue
  fq : t.fq = s.fq
  now : t.now = s.now
  srData : t.levels.srData = s.levels.srData
  srShclk : t.levels.srShclk = s.levels.srShclk
  srLatch : t.levels.srLatch = s.levels.srLatch

theorem OnlyAdc.refl (s : State) : OnlyAdc s s := ⟨rfl, rfl, rfl, rfl, rfl, rfl, rfl, rfl, rfl, rfl, rfl, rfl, rfl, rfl⟩

theorem OnlyAdc.trans {s t u : State} (h : OnlyAdc s t) (k : OnlyAdc t u) : OnlyAdc s u :=
  ⟨k.dark.trans h.dark,
    k.faulted.trans h.faulted,
    k.cause.trans h.cause,
    k.finfo.trans h.finfo,
    k.srActive.trans h.srActive,
    k.srU.trans h.srU,
    k.srT.trans h.srT,
    k.srCur.trans h.srCur,
    k.srDue.trans h.srDue,
    k.fq.trans h.fq,
    k.now.trans h.now,
    k.srData.trans h.srData,
    k.srShclk.trans h.srShclk,
    k.srLatch.trans h.srLatch⟩

theorem OnlyAdc.of_lineWrite (l : OutLine) (v : Level) (hl : isAdcLine l = true) : OnlyAdc s (lineWrite l v s) := by
  cases l <;> first | exact ⟨rfl, rfl, rfl, rfl, rfl, rfl, rfl, rfl, rfl, rfl, rfl, rfl, rfl, rfl⟩ | cases hl

theorem OnlyAdc.of_pulse : OnlyAdc s (pulse .adcClk s) := ⟨rfl, rfl, rfl, rfl, rfl, rfl, rfl, rfl, rfl, rfl, rfl, rfl, rfl, rfl⟩

theorem OnlyAdc.of_writeResult (v : Word) : OnlyAdc s (writeResult v s) := ⟨rfl, rfl, rfl, rfl, rfl, rfl, rfl, rfl, rfl, rfl, rfl, rfl, rfl, rfl⟩

theorem OnlyAdc.of_lineRead : OnlyAdc s (lineRead s) := by
  constructor <;> simp

/-! ## Sending -/

theorem adcSendBits_only (bits : List Level) : ∀ s : State, OnlyAdc s (adcSendBits bits s) := by
  induction bits with
  | nil => intro s; exact .refl s
  | cons b bits ih =>
    intro s
    exact ((OnlyAdc.of_lineWrite s .adcDin b rfl).trans (.of_pulse _)).trans (ih (adcSendBit s b))

/-- Each bit sent appends its three events. -/
theorem adcSendBits_trace (bits : List Level) : ∀ s : State,
    (adcSendBits bits s).trace = s.trace ++ bits.flatMap commandBitEvents := by
  induction bits with
  | nil => intro s; simp [adcSendBits]
  | cons b bits ih =>
    intro s
    rw [show adcSendBits (b :: bits) s = adcSendBits bits (adcSendBit s b) from rfl, ih]
    simp [adcSendBit, commandBitEvents]

/-! ## Receiving -/

theorem adcReadBits_only (n : Nat) : ∀ (r : BitVec 10) (s : State), OnlyAdc s (adcReadBits n r s).2 := by
  induction n with
  | zero => intro r s; exact .refl s
  | succ n ih =>
    intro r s
    exact ((OnlyAdc.of_pulse s).trans (.of_lineRead _)).trans (ih _ _)

/-- Each bit read appends its three events. -/
theorem adcReadBits_trace (n : Nat) : ∀ (r : BitVec 10) (s : State),
    (adcReadBits n r s).2.trace = s.trace ++ (doutDraws n s).flatMap resultBitEvents := by
  induction n with
  | zero => intro r s; simp [adcReadBits, doutDraws]
  | succ n ih =>
    intro r s
    rw [show adcReadBits (n + 1) r s
      = adcReadBits n (shiftIn r (nextDout (pulse .adcClk s))) (lineRead (pulse .adcClk s)) from rfl, ih]
    rw [doutDraws_of_env n (t := consumeDout s)
      (by rw [lineRead_env]; exact consumeDout_of_env (pulse_env s .adcClk))]
    simp [doutDraws, resultBitEvents, nextDout_of_env (pulse_env s .adcClk)]

/-- The bits read are shifted into the accumulator, first read first. -/
theorem adcReadBits_value (n : Nat) : ∀ (r : BitVec 10) (s : State),
    (adcReadBits n r s).1 = (doutDraws n s).foldl shiftIn r := by
  induction n with
  | zero => intro r s; rfl
  | succ n ih =>
    intro r s
    rw [show adcReadBits (n + 1) r s
      = adcReadBits n (shiftIn r (nextDout (pulse .adcClk s))) (lineRead (pulse .adcClk s)) from rfl, ih]
    rw [doutDraws_of_env n (t := consumeDout s)
      (by rw [lineRead_env]; exact consumeDout_of_env (pulse_env s .adcClk))]
    simp [doutDraws, nextDout_of_env (pulse_env s .adcClk)]

/-- The environment has supplied `n` levels. -/
theorem adcReadBits_env (n : Nat) : ∀ (r : BitVec 10) (s : State),
    (adcReadBits n r s).2.env = (consumeDouts n s).env := by
  induction n with
  | zero => intro r s; rfl
  | succ n ih =>
    intro r s
    rw [show adcReadBits (n + 1) r s
      = adcReadBits n (shiftIn r (nextDout (pulse .adcClk s))) (lineRead (pulse .adcClk s)) from rfl, ih]
    exact consumeDouts_of_env n (by rw [lineRead_env]; exact consumeDout_of_env (pulse_env s .adcClk))

/-- Reading moves the clock only, and leaves it low where it was low. -/
theorem adcReadBits_levels (n : Nat) : ∀ (r : BitVec 10) (s : State), s.levels.adcClk = false →
    (adcReadBits n r s).2.levels = s.levels := by
  induction n with
  | zero => intro r s _; rfl
  | succ n ih =>
    intro r s h
    rw [show adcReadBits (n + 1) r s
      = adcReadBits n (shiftIn r (nextDout (pulse .adcClk s))) (lineRead (pulse .adcClk s)) from rfl,
      ih _ _ (by simp [withLevel])]
    cases hl : s.levels
    simp_all [withLevel]

/-! ## The whole conversation -/

theorem adcSelect_only : OnlyAdc s (adcSelect s) :=
  ((OnlyAdc.of_lineWrite s .adcCs true rfl).trans (.of_lineWrite _ .adcClk false rfl)).trans
    (.of_lineWrite _ .adcCs false rfl)

theorem adcCommandPhase_only (ch : Byte) : OnlyAdc s (adcCommandPhase ch s) :=
  ((adcSelect_only s).trans (adcSendBits_only _ _)).trans (.of_pulse _)

/-- A conversation leaves everything but the ADC lines, the trace, RESULT and the environment as it was (R114). -/
theorem adcConversation_only (ch : Byte) : OnlyAdc s (adcConversation ch s) :=
  (((adcCommandPhase_only s ch).trans (adcReadBits_only 10 0#10 _)).trans
    (.of_lineWrite _ .adcCs true rfl)).trans (.of_writeResult _ _)

@[simp] theorem adcSendBits_env (bits : List Level) : ∀ s : State, (adcSendBits bits s).env = s.env := by
  induction bits with
  | nil => intro s; rfl
  | cons b bits ih => intro s; exact ih (adcSendBit s b)

@[simp] theorem adcCommandPhase_env (ch : Byte) : (adcCommandPhase ch s).env = s.env := by
  simp [adcCommandPhase, adcSelect]

/-- The conversation's result register: VALID and the ten draws (R107). -/
theorem adcConversation_result (ch : Byte) :
    (adcConversation ch s).result = validResult (valueOfBits (doutDraws 10 s)) := by
  simp [adcConversation, adcReadBits_value, valueOfBits, doutDraws_of_env 10 (adcCommandPhase_env s ch)]

/-- The conversation uses up ten of the levels ENV supplies. -/
theorem adcConversation_env (ch : Byte) : (adcConversation ch s).env = (consumeDouts 10 s).env := by
  simp [adcConversation, adcReadBits_env, consumeDouts_of_env 10 (adcCommandPhase_env s ch)]

end Sys2Proof.Machine
end

