-- ==== Sys2Proof/Laws/Ops.lean ====
section
/-! SUPPORT. What the shared operations can do: the frame queue and the cursor, the bus, and one inversion lemma for a step, which
the whole-machine proofs cite instead of unfolding the step. -/

namespace Sys2Proof.Machine

variable (s t : State)

/-! ## Commands -/

/-- A command always completes: BBPE's own faults are next states. -/
theorem exec_answers (i : Instr) : ∃ t, exec i s = .next t := by
  cases i with
  | sample ch => simp only [exec, execSample]; split <;> exact ⟨_, rfl⟩
  | patfor n => simp only [exec, execPatfor]; split <;> exact ⟨_, rfl⟩
  | display u t => simp only [exec, execDisplay]; split <;> exact ⟨_, rfl⟩
  | setdark d => exact ⟨_, rfl⟩

/-- A write to CMD always completes. -/
theorem cmdWrite_answers (w : Word) : ∃ t, cmdWrite w s = .next t := by
  unfold cmdWrite
  split
  · exact ⟨_, rfl⟩
  · split
    · exact exec_answers _ _
    · exact ⟨_, rfl⟩

@[simp] theorem cmdWrite_faulted (w : Word) (h : s.faulted = true) : cmdWrite w s = .next s := by
  simp [cmdWrite, h]

theorem cmdWrite_ok (w : Word) (i : Instr) (h : s.faulted = false) (hd : decode w = .ok i) :
    cmdWrite w s = exec i s := by
  simp [cmdWrite, h, hd]

theorem cmdWrite_error (w : Word) (e : DecodeError) (h : s.faulted = false) (hd : decode w = .error e) :
    cmdWrite w s = .next (raiseFault (decodeCause e) w s) := by
  simp [cmdWrite, h, hd]

/-! ## The bus -/

/-- An access reaches its register exactly where it is 32 bits wide, aligned and in the window (R51, R52). -/
theorem guardAccess_next (off width : Nat) (k : Host.Outcome State Fault Refusal) :
    guardAccess off width k = .next t ↔ off < 0x20 ∧ width = 32 ∧ off % 4 = 0 ∧ k = .next t := by
  unfold guardAccess
  split
  · simp; omega
  · split
    · simp_all
    · split
      · simp_all
      · simp_all

@[simp] theorem guardAccess_ok (off width : Nat) (k : Host.Outcome State Fault Refusal)
    (h : off < 0x20) (hw : width = 32) (ha : off % 4 = 0) : guardAccess off width k = k := by
  unfold guardAccess
  rw [if_neg (by omega), if_neg (by simp [hw]), if_neg (by simp [ha])]

/-- A 32-bit write to CMD is the command port. -/
theorem runAction_cmdWrite (w : Word) : runAction (.host (.write 0x00 32 w)) s = cmdWrite w s := rfl

/-- A register write other than to CMD changes nothing (R53, R54). -/
theorem registerWrite_other (off : Nat) (data : Word) (h : off ≠ 0) : registerWrite off data s = .next s := by
  unfold registerWrite
  split
  · exact absurd rfl h
  · rfl

/-! ## What one action can do -/

/-- Every way the machine moves without a reset. Each constructor carries the action and what held when it was taken. -/
inductive Moves : Action → State → State → Prop where
  /-- A read, which hands the host a value. -/
  | read {s : State} (off : Nat) : Moves (.host (.read off 32)) s (reply off (readValue off s) s)
  /-- A write that has no effect: not to CMD, or to a FAULTED machine's CMD. -/
  | noEffect {s : State} (off : Nat) (w : Word) (h : off ≠ 0 ∨ s.faulted = true) :
      Moves (.host (.write off 32 w)) s s
  /-- A word that is no command. -/
  | reject {s : State} (w : Word) (e : DecodeError) (hf : s.faulted = false) (hd : decode w = .error e) :
      Moves (.host (.write 0x00 32 w)) s (raiseFault (decodeCause e) w s)
  /-- A command with an operand out of range. -/
  | range {s : State} (w : Word) (i : Instr) (hf : s.faulted = false) (hd : decode w = .ok i)
      (hi : (∃ ch, i = .sample ch ∧ 7 < ch.toNat) ∨ (∃ n, i = .patfor n ∧ 16 < n.toNat)) :
      Moves (.host (.write 0x00 32 w)) s (raiseFault .operandRange (encode i) s)
  /-- A SAMPLE. -/
  | sample {s : State} (w : Word) (ch : Byte) (hf : s.faulted = false) (hd : decode w = .ok (.sample ch))
      (hc : ch.toNat ≤ 7) : Moves (.host (.write 0x00 32 w)) s (adcConversation ch s)
  /-- A PATFOR. -/
  | patfor {s : State} (w : Word) (n : Byte) (k : Fin 17) (hf : s.faulted = false) (hd : decode w = .ok (.patfor n))
      (hk : k.val = n.toNat) :
      Moves (.host (.write 0x00 32 w)) s (writeResult (validResult ((patternTable k).zeroExtend 10)) s)
  /-- A DISPLAY that overruns the queue. -/
  | overrun {s : State} (w : Word) (u v : Byte) (hf : s.faulted = false) (hd : decode w = .ok (.display u v))
      (hq : queueFull s) : Moves (.host (.write 0x00 32 w)) s (raiseFault .frameOverrun (encode (.display u v)) s)
  /-- A DISPLAY whose frame is accepted. -/
  | accept {s : State} (w : Word) (u v : Byte) (hf : s.faulted = false) (hd : decode w = .ok (.display u v))
      (hq : ¬ queueFull s) :
      Moves (.host (.write 0x00 32 w)) s (acceptFrame (acceptUnits Config.darkSamplePoint s.dark u) v s)
  /-- A SETDARK. -/
  | setdark {s : State} (w : Word) (d : Level) (hf : s.faulted = false) (hd : decode w = .ok (.setdark d)) :
      Moves (.host (.write 0x00 32 w)) s (writeDark d s)
  /-- An SR_STEP that fires. -/
  | fire {s : State} (h : srEnabled s = true) : Moves .seq s (srStep s)
  /-- SEQ's turn where no SR_STEP is enabled. -/
  | pass {s : State} (h : srEnabled s = false) : Moves .seq s s
  /-- A TIME step. -/
  | time {s : State} : Moves .time s (timeStep s)

/-- A write to CMD that answers is one of the moves. -/
theorem cmdWrite_moves (w : Word) (h : cmdWrite w s = .next t) : Moves (.host (.write 0x00 32 w)) s t := by
  cases hf : s.faulted with
  | true =>
    rw [cmdWrite_faulted s w hf] at h
    cases h
    exact .noEffect 0 w (.inr hf)
  | false =>
    cases hd : decode w with
    | error e =>
      rw [cmdWrite_error s w e hf hd] at h
      cases h
      exact .reject w e hf hd
    | ok i =>
      rw [cmdWrite_ok s w i hf hd] at h
      cases i with
      | sample ch =>
        simp only [exec, execSample] at h
        split at h
        · cases h; exact .range w _ hf hd (.inl ⟨ch, rfl, ‹_›⟩)
        · cases h; exact .sample w ch hf hd (by omega)
      | patfor n =>
        simp only [exec, execPatfor, patternIndex] at h
        by_cases hn : n.toNat < 17
        · simp only [hn, ↓reduceDIte] at h
          cases h
          exact .patfor w n ⟨n.toNat, hn⟩ hf hd rfl
        · simp only [hn, ↓reduceDIte] at h
          cases h
          exact .range w _ hf hd (.inr ⟨n, rfl, by omega⟩)
      | display u v =>
        simp only [exec, execDisplay] at h
        split at h
        · cases h; exact .overrun w u v hf hd ‹_›
        · cases h; exact .accept w u v hf hd ‹_›
      | setdark d =>
        cases h
        exact .setdark w d hf hd

/-- The inversion lemma of an action: what answers is a reset or one of the moves. -/
theorem runAction_moves (a : Action) (h : runAction a s = .next t) :
    (∃ m, a = .reset m ∧ t = resetMachine m s) ∨ Moves a s t := by
  cases a with
  | host op =>
    refine .inr ?_
    cases op with
    | read off width =>
      obtain ⟨-, rfl, -, hk⟩ := (guardAccess_next t off width _).1 h
      cases hk
      exact .read off
    | write off width w =>
      obtain ⟨-, rfl, -, hk⟩ := (guardAccess_next t off width _).1 h
      by_cases ho : off = 0
      · subst ho; exact cmdWrite_moves s t w hk
      · rw [registerWrite_other s off w ho] at hk
        cases hk
        exact .noEffect off w (.inl ho)
  | reset m => cases h; exact .inl ⟨m, rfl, rfl⟩
  | seq =>
    refine .inr ?_
    simp only [runAction, seqTurn] at h
    by_cases he : srEnabled s = true
    · rw [if_pos he] at h; cases h; exact .fire he
    · rw [if_neg he] at h; cases h; exact .pass (by simpa using he)
  | time => cases h; exact .inr .time

/-- The inversion lemma of a step that is no reset. -/
theorem step_moves (hr : ∀ m, nextAction s ≠ .reset m) (h : step s = .next t) :
    Moves (nextAction s) (consumeAction s) t := by
  rcases runAction_moves (consumeAction s) t (nextAction s) h with ⟨m, hm, -⟩ | h
  · exact absurd hm (hr m)
  · exact h

@[simp] theorem nextAction_cons (a : Action) (rest : List Action) (h : s.env.inputs = a :: rest) : nextAction s = a := by
  unfold nextAction; rw [h]

theorem consumeAction_cons (a : Action) (rest : List Action) (h : s.env.inputs = a :: rest) :
    consumeAction s = { s with env := { s.env with inputs := rest } } := by
  unfold consumeAction; rw [h]

@[simp] theorem srEnabled_consumeAction : srEnabled (consumeAction s) = srEnabled s := by
  simp [srEnabled, armed]

theorem srEnabled_iff :
    srEnabled s = true ↔ s.srActive = true ∧ s.faulted = false ∧ s.srDue ≤ s.now := by
  simp [srEnabled, armed, and_assoc]

/-! ## Reset -/

theorem resetMachine_allLines : resetMachine 0x7F#7 s = { State.reset with env := s.env } := rfl

theorem resetMachine_missing (m : BitVec 7) (h : m ≠ 0x7F#7) :
    resetMachine m s = raiseFault .config (missingLines m)
      { State.reset with
        levels := levelsAfterReset m s.env.draws
        env := { s.env with draws := s.env.draws + 1 } } := by
  simp [resetMachine, h]

/-! ## Frames -/

theorem nextFrame_cons (f : Frame) (rest : List Frame) (h : s.fq = f :: rest) :
    nextFrame s = startFrame f.u f.t { s with fq := rest } := by
  unfold nextFrame; rw [h]

theorem nextFrame_nil (h : s.fq = []) : nextFrame s = { s with srActive := false, srCur := 0#4 } := by
  unfold nextFrame; rw [h]

theorem srStep_mid (h : s.srCur.toNat < 15) : srStep s = advanceCursor (shiftOut (currentBit s) s) := by
  simp [srStep, h]

theorem srStep_last (h : ¬ s.srCur.toNat < 15) :
    srStep s = nextFrame (pulse .srLatch (shiftOut (currentBit s) s)) := by
  simp [srStep, h]

/-- What one SR_STEP appends to the trace (R138). -/
theorem srStep_trace : (srStep s).trace = s.trace ++ frameBitEvents (currentBit s)
    ++ (if s.srCur.toNat < 15 then [] else latchEvents) := by
  unfold srStep
  split
  · simp
  · unfold nextFrame
    split <;> simp [latchEvents]

/-- An SR_STEP changes neither the ADC lines nor DARK, RESULT, the fault registers, NOW or the environment (R137, R149). -/
structure OnlyDisplay (s t : State) : Prop where
  adcCs : t.levels.adcCs = s.levels.adcCs
  adcClk : t.levels.adcClk = s.levels.adcClk
  adcDin : t.levels.adcDin = s.levels.adcDin
  dark : t.dark = s.dark
  result : t.result = s.result
  faulted : t.faulted = s.faulted
  cause : t.cause = s.cause
  finfo : t.finfo = s.finfo
  now : t.now = s.now
  env : t.env = s.env

theorem srStep_only : OnlyDisplay s (srStep s) := by
  unfold srStep
  split
  · constructor <;> simp [withLevel]
  · unfold nextFrame
    split <;> constructor <;> simp [withLevel]

theorem acceptFrame_only (u v : Byte) : OnlyDisplay s (acceptFrame u v s) := by
  unfold acceptFrame
  split <;> constructor <;> simp

@[simp] theorem acceptFrame_trace (u v : Byte) : (acceptFrame u v s).trace = s.trace := by
  unfold acceptFrame; split <;> simp

@[simp] theorem acceptFrame_levels (u v : Byte) : (acceptFrame u v s).levels = s.levels := by
  unfold acceptFrame; split <;> simp

end Sys2Proof.Machine
end

