-- ==== Sys2Proof/Laws/PerInstr.lean ====
section
/-! SUPPORT. Statements made per instruction, about the instruction as syntax: the fields of its encoding, read off by value and
not with the decoder's own field functions (spec/30_encoding.md R71 to R73). -/

namespace Sys2Proof.Laws.EncodeFields

/-- A command's OP as R73's map gives it. -/
def opcode : Instr → Nat
  | .sample _ => 1
  | .patfor _ => 2
  | .display _ _ => 3
  | .setdark _ => 4

/-- The value of a command's operand area, bits 15:0, as R72's formats lay it out. -/
def operandArea : Instr → Nat
  | .sample ch => ch.toNat
  | .patfor n => n.toNat
  | .display upat tpat => tpat.toNat * 256 + upat.toNat
  | .setdark d => d.toNat

/-- The encoding is OP in bits 31:28, zeros in 27:16 and the operand area below (R71). -/
def Statement (i : Instr) : Prop := (encode i).toNat = opcode i * 2 ^ 28 + operandArea i

theorem sample (ch : Byte) : Statement (.sample ch) := by
  have h := ch.isLt
  simp only [Statement, encode, opcode, operandArea, BitVec.toNat_append, BitVec.toNat_ofNat]
  rw [← Nat.shiftLeft_add_eq_or_of_lt h]
  norm_num [Nat.shiftLeft_eq]

theorem patfor (n : Byte) : Statement (.patfor n) := by
  have h := n.isLt
  simp only [Statement, encode, opcode, operandArea, BitVec.toNat_append, BitVec.toNat_ofNat]
  rw [← Nat.shiftLeft_add_eq_or_of_lt h]
  norm_num [Nat.shiftLeft_eq]

theorem display (upat tpat : Byte) : Statement (.display upat tpat) := by
  have h := upat.isLt
  have h' := tpat.isLt
  simp only [Statement, encode, opcode, operandArea, BitVec.toNat_append, BitVec.toNat_ofNat]
  rw [← Nat.shiftLeft_add_eq_or_of_lt h, ← Nat.shiftLeft_add_eq_or_of_lt h']
  simp only [Nat.shiftLeft_eq]
  norm_num
  omega

theorem setdark (d : Level) : Statement (.setdark d) := by
  cases d <;> rfl

end Sys2Proof.Laws.EncodeFields
end

