-- ==== Sys2Proof/Machine/ReferenceHost.lean ====
section
/-! DEFINITION. The reference host's tick (spec/45_host_sequences.md R171 to R174) as lists of bus accesses. These rules bind
that one host program, which is an agent outside BBPE (spec/00_scope.md R5); the machine admits every host. -/

namespace Sys2Proof.Machine

/-- `TICK_PERIOD`, 1000 ms, of the host's own clock (R8, R171). -/
def tickPeriod : Nat := 1000

/-- `DARK_THRESHOLD`: dark where the value is above 200 (R8, R174). -/
def darkThreshold : Nat := 200

/-- `WR 0x00, w` with the word of a command. -/
def command (i : Instr) : BusOp := .write 0x00 32 (encode i)

/-- `RD RESULT`. -/
def readResult : BusOp := .read 0x04 32

/-- The tens digit of the seconds value, `s div 10` (R172). -/
def tensDigit (seconds : Fin 60) : Byte := BitVec.ofNat 8 (seconds.val / 10)

/-- The units digit of the seconds value, `s mod 10` (R172). -/
def unitsDigit (seconds : Fin 60) : Byte := BitVec.ofNat 8 (seconds.val % 10)

/-- The pattern the host takes from a RESULT read, RESULT[7:0] (R172). -/
def patternOf (result : Word) : Byte := result.extractLsb' 0 8

/-- The sample the host takes from a RESULT read, RESULT[9:0] (R173). -/
def sampleOf (result : Word) : Nat := (result.extractLsb' 0 10).toNat

/-- The display part: both patterns are looked up and read, then the frame is handed over, units first (R172). `upat` and
`tpat` are what the two reads gave. -/
def displayPart (seconds : Fin 60) (upat tpat : Byte) : List BusOp :=
  [command (.patfor (unitsDigit seconds)), readResult, command (.patfor (tensDigit seconds)), readResult,
    command (.display upat tpat)]

/-- The sampling part: every channel in increasing order, each read before the next (R173). -/
def samplingPart : List BusOp :=
  (List.range 8).flatMap fun ch => [command (.sample (BitVec.ofNat 8 ch)), readResult]

/-- The level the host gives DARK: 1 exactly where the light channel's sample is above the threshold (R174). -/
def isDark (sample : Nat) : Level := decide (darkThreshold < sample)

/-- The dark part, from the sampling part's reading of `LIGHT_CHANNEL` (R174). -/
def darkPart (samples : Fin 8 → Nat) : List BusOp :=
  [command (.setdark (isDark (samples Config.lightChannel)))]

/-- One tick: display, sampling, dark, in this order (R171). -/
def tick (seconds : Fin 60) (upat tpat : Byte) (samples : Fin 8 → Nat) : List BusOp :=
  displayPart seconds upat tpat ++ samplingPart ++ darkPart samples

end Sys2Proof.Machine
end

