-- ==== Sys2Proof/Tests/Slice0.lean ====
section
/-! SUPPORT. The model's own tests. Expected values are the spec's: the vectors of spec/95_test_vectors.md, by their ids, and the
tables of the rules named. `witness_<Obligation>` shows a concrete state and operands that meet the hypotheses of that
obligation. -/

namespace Sys2Proof.Machine.Tests

/-! ## Small states -/

/-- The reset state with a command word placed. -/
def placed (w : Nat) : State := State.reset.withFetchWord 32 w

/-- The reset state with coming actions. -/
def withInputs (l : List Action) (s : State) : State := { s with env := { s.env with inputs := l } }

/-- The reset state with the levels of the coming ADC_DOUT reads. -/
def withDout (l : List Level) : State := { State.reset with env := { State.reset.env with dout := l } }

/-- The frame 0x2D23 of V-D1, active with the cursor at `cur` and its step due. -/
def busyAt (cur : BitVec 4) : State :=
  { State.reset with srActive := true, srU := 0x23#8, srT := 0x2D#8, srCur := cur }

/-- A machine that a SAMPLE 9 has faulted (V-E6). -/
def halted : State := raiseFault .operandRange 0x10000009#32 State.reset

/-- The word's bits as a list of levels, first character first. -/
def bits (s : List Nat) : List Level := s.map (· == 1)

/-! ## Decoding: words written out bit by bit from R72's formats -/

-- oooo 000000000000 00000000 aaaaaaaa, with OP 0001 and CH 00000101
theorem test_decode_sample : decode 0b00010000000000000000000000000101#32 = .ok (.sample 5#8) := rfl
-- OP 0010, N 00010000
theorem test_decode_patfor : decode 0b00100000000000000000000000010000#32 = .ok (.patfor 16#8) := rfl
-- oooo 000000000000 bbbbbbbb aaaaaaaa, OP 0011, TPAT 00101101, UPAT 00100011
theorem test_decode_display : decode 0b00110000000000000010110100100011#32 = .ok (.display 0x23#8 0x2D#8) := rfl
-- oooo 000000000000 00000000 0000000d, OP 0100, D 1
theorem test_decode_setdark : decode 0b01000000000000000000000000000001#32 = .ok (.setdark true) := rfl
-- V-E1 to V-E3
theorem test_decode_illegal :
    decode 0#32 = .error .illegalOp ∧ decode 0x50000000#32 = .error .illegalOp
      ∧ decode 0xFFFFFFFF#32 = .error .illegalOp := ⟨rfl, rfl, rfl⟩
-- V-S10, V-S11, V-P6, V-D10, V-K3, V-K4
theorem test_decode_reserved :
    decode 0x10000105#32 = .error .reservedBits ∧ decode 0x10010005#32 = .error .reservedBits
      ∧ decode 0x20000104#32 = .error .reservedBits ∧ decode 0x30010000#32 = .error .reservedBits
      ∧ decode 0x40000002#32 = .error .reservedBits ∧ decode 0x40100001#32 = .error .reservedBits :=
  ⟨rfl, rfl, rfl, rfl, rfl, rfl⟩

theorem test_decodeTableWord : decodeTableWord 32 0x30002D23 = some (.display 0x23#8 0x2D#8) := rfl

/-! ## Well-formedness: R76 -/

theorem test_wf_sample : (Instr.sample 7#8).wellFormed = true ∧ (Instr.sample 8#8).wellFormed = false := by decide
theorem test_wf_patfor : (Instr.patfor 16#8).wellFormed = true ∧ (Instr.patfor 17#8).wellFormed = false := by decide
theorem test_wf_every_operand :
    (Instr.display 0xFF#8 0xFF#8).wellFormed = true ∧ (Instr.setdark true).wellFormed = true := by decide

/-! ## A placed word is run by the very next step -/

theorem test_step_sample : (nextState (step (placed 0x10000000))).isSome = true := rfl
theorem test_step_patfor : (nextState (step (placed 0x20000000))).isSome = true := rfl
theorem test_step_display : (nextState (step (placed 0x30000000))).isSome = true := rfl
theorem test_step_setdark : (nextState (step (placed 0x40000001))).map (·.dark) = some true := rfl

/-! ## Commands -/

-- V-S4: SAMPLE 5 with DOUT 0,0,1,1,1,0,0,1,1,0 leaves 0x800000E6
theorem test_sample_vs4 :
    (nextState (exec (.sample 5#8) (withDout (bits [0, 0, 1, 1, 1, 0, 0, 1, 1, 0])))).map (·.result)
      = some 0x800000E6#32 := by decide
-- R81's table: channel 6 is 0xF0; the accumulator of V-S6 is 682
theorem test_sample_formats :
    adcCommandByte 6#8 = 0xF0#8 ∧ valueOfBits (bits [1, 0, 1, 0, 1, 0, 1, 0, 1, 0]) = 682#10 := by decide
-- V-P2, and V-P8: no override with DARK = 1
theorem test_patfor_vp2 :
    (nextState (exec (.patfor 7#8) { State.reset with dark := true })).map (·.result) = some 0x80000023#32 := by decide
-- V-P4
theorem test_patfor_vp4 :
    (nextState (exec (.patfor 17#8) State.reset)).map (fun t => (t.cause, t.result)) = some (3#32, 0#32) := by decide
-- V-D1
theorem test_display_vd1 :
    (nextState (exec (.display 0x23#8 0x2D#8) State.reset)).map (fun t => (t.srActive, t.srT, t.trace))
      = some (true, 0x2D#8, []) := rfl
-- V-D2, V-D3, V-D4
theorem test_display_override :
    acceptUnits .accept true 0x23#8 = 0x33#8 ∧ acceptUnits .step true 0x23#8 = 0x23#8
      ∧ acceptUnits .accept true 0x10#8 = 0x10#8 := by decide
-- V-K1, V-K2
theorem test_setdark :
    (nextState (exec (.setdark true) State.reset)).map (statusView ·) = some 0x00000002#32
      ∧ (nextState (exec (.setdark false) { State.reset with dark := true })).map (·.dark) = some false := by decide

/-! ## SR_STEP, the register block, faults, reset -/

-- V-T1: the bit at k = 4 in STEP mode with DARK = 1, and in ACCEPT mode
theorem test_sentBit_vt1 :
    sentBit .step true 0x23#8 0x2D#8 4 = true ∧ sentBit .accept true 0x23#8 0x2D#8 4 = false
      ∧ sentBit .step true 0x23#8 0x2D#8 12 = false := by decide
-- V-T2: the cursor and SR_ACTIVE after the last bit with FQ empty
theorem test_srStep_vt2 : (srStep (busyAt 15#4)).srActive = false ∧ (srStep (busyAt 15#4)).srCur = 0#4 := ⟨rfl, rfl⟩
-- V-T3: the queued frame starts
theorem test_srStep_vt3 :
    (srStep { busyAt 15#4 with fq := [{ u := 0x21#8, t := 0xE7#8 }] }).srU = 0x21#8
      ∧ (srStep { busyAt 15#4 with fq := [{ u := 0x21#8, t := 0xE7#8 }] }).fq = [] := ⟨rfl, rfl⟩
-- V-B4
theorem test_status_vb4 :
    statusView { busyAt 5#4 with dark := true, fq := [{ u := 0#8, t := 0#8 }] } = 0x00000513#32 := by decide
-- P4: STATUS with A frozen at SR_CUR = 3
theorem test_status_p4 : statusView { busyAt 3#4 with faulted := true } = 0x00000305#32 := by decide
-- V-E6, V-E7: the first fault stays
theorem test_fault_ve7 :
    (nextState (runActions [.host (.write 0 32 0x10000009#32), .host (.write 0 32 0x10000000#32)] State.reset)).map
      (fun t => (t.cause, t.finfo, t.trace)) = some (3#32, 0x10000009#32, []) := by decide
-- V-R2: ADC_DOUT, id 3, missing
theorem test_reset_vr2 :
    statusView (resetMachine 0x77#7 State.reset) = 0x00000004#32 ∧ (resetMachine 0x77#7 State.reset).cause = 5#32
      ∧ (resetMachine 0x77#7 State.reset).finfo = 0x00000008#32 := ⟨rfl, rfl, rfl⟩
-- V-R3: a reset during an active frame
theorem test_reset_vr3 : resetMachine 0x7F#7 (busyAt 9#4) = State.reset := rfl
-- V-B2, V-B3
theorem test_bus_vb2 :
    (nextState (runActions [.host (.write 4 32 0x12345678#32), .host (.read 4 32), .host (.read 0x14 32)]
      State.reset)).map (·.env.replies) = some [⟨4, 0#32⟩, ⟨0x14, 0#32⟩] := by decide
-- R79's syntax table: the words of P1
theorem test_assembler :
    assembleWord (.display 0x23 0x2D) = some 0x30002D23#32 ∧ assembleWord (.sample 5) = some 0x10000005#32
      ∧ assembleWord (.setdark 2) = none := by decide
-- R79, with P1's DISPLAY and WR as they are spelled there
theorem test_assemble_text :
    assembleText "DISPLAY 0x23, 0x2D".toList = some (.write 0 32 0x30002D23#32)
      ∧ assembleText "WR 0x00, 0x20000007".toList = some (.write 0 32 0x20000007#32)
      ∧ assembleText "SAMPLE 0b101".toList = some (.write 0 32 0x10000005#32)
      ∧ assembleText "SETDARK 2".toList = none ∧ assembleText "RD 8".toList = some (.read 8 32) := by decide
-- R171: twelve CMD writes in a tick
theorem test_tick :
    ((tick 47 0x23#8 0x2D#8 (fun _ => 0)).countP fun op => match op with
      | .write 0 _ _ => true
      | _ => false) = 12 := rfl
-- S5, S6: seconds 47, and the threshold
theorem test_tick_values :
    unitsDigit 47 = 7#8 ∧ tensDigit 47 = 4#8 ∧ isDark 230 = true ∧ isDark 200 = false := by decide

/-! ## Witnesses: encoding and fetching -/

theorem witness_DecodedWordIsItsEncoding : decode 0x10000005#32 = .ok (.sample 5#8) := rfl

theorem witness_DecodeFollowsMaskTable :
    0x50000000#32 &&& 0xFFFFFF00#32 ≠ 0x10000000#32 ∧ 0x50000000#32 &&& 0xFFFFFF00#32 ≠ 0x20000000#32
      ∧ 0x50000000#32 &&& 0xFFFF0000#32 ≠ 0x30000000#32 ∧ 0x50000000#32 &&& 0xFFFFFFFE#32 ≠ 0x40000000#32 := by decide

theorem witness_AssemblerAgreesWithEncoder : 1 < 256 ∧ 255 < 256 ∧ 1 < 2 := by decide

theorem witness_StepRunsDecodedCommand :
    (placed 0x40000001).faulted = false
      ∧ (placed 0x40000001).env.inputs = .host (.write 0x00 32 0x40000001#32) :: []
      ∧ decode 0x40000001#32 = .ok (.setdark true) := ⟨rfl, rfl, rfl⟩

theorem witness_PlacedWordRunsNext :
    State.reset.faulted = false ∧ decodeTableWord 32 0x40000001 = some (.setdark true) := ⟨rfl, rfl⟩

/-! ## Witnesses: commands -/

-- for SampleNextState, SampleEventTable, SampleResultIsWeightedSum, SampleEndLevels
theorem witness_SampleNextState : (0#8).toNat ≤ 7 ∧ (7#8).toNat ≤ 7 := by decide

theorem witness_SampleRoundTrip :
    doutDraws 10 (withDout (bits [0, 0, 1, 1, 1, 0, 0, 1, 1, 0]))
      = (List.range 10).map (fun j => (230#10).getLsbD (9 - j)) := by decide

theorem witness_SampleOutOfRange : 7 < (8#8).toNat := by decide

theorem witness_SampleAndSrStepCommutePerLine : (7#8).toNat ≤ 7 ∧ srEnabled (busyAt 7#4) = true := by decide

theorem witness_PatforNextState : (0#8).toNat < 17 ∧ (16#8).toNat < 17 := by decide

theorem witness_PatforOutOfRange : 16 < (17#8).toNat := by decide

-- for DisplayIdleStartsFrame, DarkOverrideOnlyBitFour
theorem witness_DisplayIdleStartsFrame : State.reset.srActive = false := rfl

theorem witness_DisplayedFrameReachesItsLatch :
    State.reset.srActive = false ∧ State.reset.faulted = false ∧ State.reset.fq = [] := ⟨rfl, rfl, rfl⟩

theorem witness_DisplayBusyQueues :
    (busyAt 0#4).srActive = true ∧ (busyAt 0#4).fq.length < Config.fqDepth :=
  ⟨rfl, Nat.succ_pos _⟩

theorem witness_DisplayOverrunFaults :
    ∃ s : State, s.srActive = true ∧ s.fq.length = Config.fqDepth :=
  ⟨{ busyAt 0#4 with fq := List.replicate Config.fqDepth { u := 0#8, t := 0#8 } }, rfl, List.length_replicate⟩

/-! ## Witnesses: SR_STEP and the wire -/

-- for SrStepMidFrame, SrStepEventBlock
theorem witness_SrStepMidFrame : srEnabled (busyAt 14#4) = true ∧ (busyAt 14#4).srCur.toNat < 15 := by decide

-- for SrStepLatchesAndIdles, SrStepEventBlock
theorem witness_SrStepLatchesAndIdles :
    srEnabled (busyAt 15#4) = true ∧ (busyAt 15#4).srCur = 15#4 ∧ (busyAt 15#4).fq = [] := by decide

theorem witness_SrStepLatchesAndStartsNext :
    ∃ s : State, srEnabled s = true ∧ s.srCur = 15#4 ∧ s.fq = [{ u := 0x21#8, t := 0xE7#8 }] :=
  ⟨{ busyAt 15#4 with fq := [{ u := 0x21#8, t := 0xE7#8 }] }, rfl, rfl, rfl⟩

theorem witness_SrStepOnlyWhenEnabled : srEnabled State.reset = false := rfl

theorem witness_FrameIsFiftyWrites : (busyAt 0#4).srCur = 0#4 := rfl

theorem busyAt_inv (cur : BitVec 4) : (busyAt cur).Inv := by
  constructor <;> simp [busyAt, State.reset, Levels.reset]

theorem wireShows_busyAt : WireShows [{ u := 0x23#8, t := 0x2D#8 }] (withInputs [.seq] (busyAt 0#4)) := by
  refine ⟨[], [], 0, rfl, .nil, rfl, ?_⟩
  intro _ k hk
  exact absurd hk (by simp [withInputs, busyAt])

theorem witness_FramesLatchInOrderUninterleaved :
    (withInputs [.seq] (busyAt 0#4)).Inv
      ∧ WireShows [{ u := 0x23#8, t := 0x2D#8 }] (withInputs [.seq] (busyAt 0#4))
      ∧ (∀ m, nextAction (withInputs [.seq] (busyAt 0#4)) ≠ .reset m)
      ∧ ∃ t, step (withInputs [.seq] (busyAt 0#4)) = .next t := by
  refine ⟨?_, wireShows_busyAt, fun m => by decide +revert, _, rfl⟩
  constructor <;> simp [withInputs, busyAt, State.reset, Levels.reset]

theorem witness_NotBusyMeansAllLatched :
    ∃ (accepted : List Frame) (s : State),
      accepted ≠ [] ∧ s.Inv ∧ WireShows accepted s ∧ s.srActive = false := by
  refine ⟨[{ u := 0x23#8, t := 0x2D#8 }], { State.reset with trace := frameEvents 0x2D23#16 }, by simp, ?_, ?_, rfl⟩
  · constructor <;> simp [State.reset, Levels.reset]
  · refine ⟨[{ u := 0x23#8, t := 0x2D#8 }], [0x2D23#16], 0, rfl, .cons ?_ .nil, by decide, by simp [State.reset]⟩
    intro k hk
    unfold bitAgrees
    split
    · intro h; revert h; decide
    · rename_i h
      clear h
      revert k
      decide

theorem witness_DarkReadOnlyAtBitFour : srEnabled (busyAt 5#4) = true ∧ (busyAt 5#4).srCur ≠ 4#4 := by decide

/-- Steps of TIME alone. -/
theorem runActions_time (n : Nat) : ∀ s : State,
    runActions (List.replicate n .time) s = .next { s with now := s.now + n } := by
  induction n with
  | zero => intro s; rfl
  | succ n ih =>
    intro s
    rw [List.replicate_succ]
    simp only [runActions, runAction, ih, timeStep]
    simp [Nat.add_assoc, Nat.add_comm 1 n]

theorem noReset_time (n : Nat) (m : BitVec 7) : Action.reset m ∉ List.replicate n Action.time := by
  simp [List.mem_replicate]

theorem witness_StepsArePaced_seq :
    ∃ (s x t : State) (acts : List Action), (∀ m, Action.reset m ∉ acts)
      ∧ (srEnabled s = true ∧ runAction .seq s = .next x) ∧ runActions acts x = .next t ∧ srEnabled t = true := by
  refine ⟨busyAt 0#4, srStep (busyAt 0#4), _, List.replicate Config.bitDelay .time, noReset_time _, ⟨rfl, rfl⟩,
    runActions_time _ _, ?_⟩
  rw [srEnabled_iff]
  exact ⟨rfl, rfl, Nat.le_refl _⟩

theorem witness_StepsArePaced_display :
    ∃ (s x t : State) (acts : List Action), (∀ m, Action.reset m ∉ acts)
      ∧ (s.srActive = false ∧ ∃ u v, exec (.display u v) s = .next x)
      ∧ runActions acts x = .next t ∧ srEnabled t = true := by
  refine ⟨State.reset, _, _, List.replicate Config.bitDelay .time, noReset_time _, ⟨rfl, 0x23#8, 0x2D#8, rfl⟩,
    runActions_time _ _, ?_⟩
  rw [srEnabled_iff]
  exact ⟨rfl, rfl, Nat.le_refl _⟩

/-! ## Witnesses: a fair run -/

/-- TIME and SEQ in turn. -/
def turns (n : Nat) : Action := if n % 2 = 0 then .time else .seq

/-- The run of `turns` from the frame of V-D1. -/
def turnsRun : Nat → State
  | 0 => busyAt 0#4
  | n + 1 => if n % 2 = 0 then timeStep (turnsRun n) else seqTurn (turnsRun n)

theorem turnsRun_isRun : IsRun turns turnsRun := by
  intro n
  unfold turns
  simp only [turnsRun]
  split <;> rfl

theorem turns_fair : Fair turns turnsRun :=
  ⟨fun n => ⟨2 * n, by omega, by simp [turns]⟩,
    fun n _ => ⟨2 * n + 1, by omega, by simp [turns, Nat.add_mod]⟩⟩

theorem turns_hostDone : HostDone turns 0 := by
  intro m _
  unfold turns
  split
  · exact .inr rfl
  · exact .inl rfl

theorem turnsRun_faulted (n : Nat) : (turnsRun n).faulted = false := by
  induction n with
  | zero => rfl
  | succ n ih =>
    simp only [turnsRun]
    split
    · exact ih
    · unfold seqTurn
      split
      · rw [(srStep_only _).faulted]; exact ih
      · exact ih

theorem witness_ActiveFrameIsEventuallyLatched :
    IsRun turns turnsRun ∧ Fair turns turnsRun ∧ (∀ m k, 0 ≤ m → turns m ≠ .reset k)
      ∧ (∀ m, 0 ≤ m → (turnsRun m).faulted = false) ∧ (turnsRun 0).srActive = true := by
  refine ⟨turnsRun_isRun, turns_fair, ?_, fun m _ => turnsRun_faulted m, rfl⟩
  intro m k _
  unfold turns
  split <;> simp

theorem witness_FinishedHostReachesFinalState :
    IsRun turns turnsRun ∧ Fair turns turnsRun ∧ HostDone turns 0 ∧ (turnsRun 0).faulted = false :=
  ⟨turnsRun_isRun, turns_fair, turns_hostDone, rfl⟩

/-! ## Witnesses: faults, reset, the register block -/

theorem witness_RejectedWordFaults :
    State.reset.faulted = false
      ∧ (0x00000000#32).toNat / 2 ^ 28 = 0 ∧ 4 < (0x50000000#32).toNat / 2 ^ 28
      ∧ ((0x1000FF09#32).toNat / 2 ^ 28 = 1 ∧ 0x1000FF09#32 &&& 0x0FFFFF00#32 ≠ 0#32)
      ∧ ((0x20000104#32).toNat / 2 ^ 28 = 2 ∧ 0x20000104#32 &&& 0x0FFFFF00#32 ≠ 0#32)
      ∧ ((0x30010000#32).toNat / 2 ^ 28 = 3 ∧ 0x30010000#32 &&& 0x0FFF0000#32 ≠ 0#32)
      ∧ ((0x40000002#32).toNat / 2 ^ 28 = 4 ∧ 0x40000002#32 &&& 0x0FFFFFFE#32 ≠ 0#32) := by decide

theorem witness_FaultsArePrecise :
    ∃ t, State.reset.faulted = false
      ∧ runAction (.host (.write 0x00 32 0x10000009#32)) State.reset = .next t ∧ t.faulted = true :=
  ⟨_, rfl, rfl, rfl⟩

theorem witness_FaultedMachineIsHalted : halted.faulted = true := rfl

theorem witness_OnlyResetLeavesFaulted :
    (withInputs [.time] halted).faulted = true ∧ (∀ m, nextAction (withInputs [.time] halted) ≠ .reset m)
      ∧ ∃ t, step (withInputs [.time] halted) = .next t :=
  ⟨rfl, fun m => by decide +revert, _, rfl⟩

theorem witness_StatusReadGivesFields :
    ({ State.reset with fq := List.replicate 15 { u := 0#8, t := 0#8 } } : State).fq.length ≤ 15 := by decide

theorem witness_AccessesWithoutMeaningStop :
    0x20 ≤ 0x20 ∧ (0x1F < 0x20 ∧ 31 ≠ 32) ∧ (0x1F < 0x20 ∧ 0x1F % 4 ≠ 0) ∧ (0x01 < 0x20 ∧ 0x01 % 4 ≠ 0) := by decide

/-! ## Witnesses: whole-machine rules -/

theorem witness_StepKeepsInv :
    (withInputs [.reset 0x77#7] (busyAt 3#4)).Inv ∧ ∃ t, step (withInputs [.reset 0x77#7] (busyAt 3#4)) = .next t := by
  refine ⟨?_, _, rfl⟩
  constructor <;> simp [withInputs, busyAt, State.reset, Levels.reset]

theorem witness_OnlySetdarkChangesDark :
    (∀ m, nextAction (placed 0x40000001) ≠ .reset m)
      ∧ ∃ t, step (placed 0x40000001) = .next t ∧ t.dark ≠ (placed 0x40000001).dark :=
  ⟨fun m => by decide +revert, _, rfl, by decide⟩

theorem witness_OnlySampleAndPatforChangeResult :
    (∀ m, nextAction (placed 0x20000007) ≠ .reset m)
      ∧ ∃ t, step (placed 0x20000007) = .next t ∧ t.result ≠ (placed 0x20000007).result :=
  ⟨fun m => by decide +revert, _, rfl, by decide⟩

-- for OnlyTimeAdvancesNow, LinesHaveOneOwner, LevelIsLastWrite: TIME, SEQ and a SAMPLE
theorem witness_OnlyTimeAdvancesNow :
    ((∀ m, nextAction (withInputs [.time] State.reset) ≠ .reset m)
        ∧ ∃ t, step (withInputs [.time] State.reset) = .next t)
      ∧ ((∀ m, nextAction (withInputs [.seq] (busyAt 3#4)) ≠ .reset m)
        ∧ ∃ t, step (withInputs [.seq] (busyAt 3#4)) = .next t)
      ∧ ((∀ m, nextAction (placed 0x10000005) ≠ .reset m)
        ∧ ∃ t, step (placed 0x10000005) = .next t) :=
  ⟨⟨fun m => by decide +revert, _, rfl⟩, ⟨fun m => by decide +revert, _, rfl⟩, ⟨fun m => by decide +revert, _, rfl⟩⟩

end Sys2Proof.Machine.Tests
end

namespace Sys2Proof.Machine

/-! ## The invariant (spec/10_state.md R42): one lemma per operation that a step is made of -/

/-- The word SAMPLE and PATFOR leave in RESULT has zeros in bits 30:10 (R27). -/
theorem validResult_reservedBits (v : BitVec 10) : (validResult v).extractLsb' 10 21 = 0#21 := by
  ext i hi
  have hbit : (0x80000000#32).getLsbD (10 + i) = false := by
    rw [show 0x80000000#32 = BitVec.twoPow 32 31 from rfl, BitVec.getLsbD_twoPow]
    simp
    omega
  simp [validResult, hbit]

/-- Every cause has one of R200's codes 1 to 5. -/
theorem causeCode_range (c : Cause) :
    1 ≤ ((causeCode c).zeroExtend 32).toNat ∧ ((causeCode c).zeroExtend 32).toNat ≤ 5 := by
  cases c <;> decide

namespace State.Inv

variable {s : State}

/-- The invariant says nothing of the model's own fields. -/
theorem withEnv (hi : s.Inv) (e : Env) : State.Inv { s with env := e } :=
  { hi with }

theorem consumeAction (hi : s.Inv) : (consumeAction s).Inv := by
  unfold Machine.consumeAction
  split <;> exact hi.withEnv _

theorem writeDark (hi : s.Inv) (d : Level) : (writeDark d s).Inv :=
  { hi with }

/-- Every result word the commands leave has zeros in bits 30:10. -/
theorem writeResult_validResult (hi : s.Inv) (v : BitVec 10) : (writeResult (validResult v) s).Inv :=
  { hi with
    resultBits := validResult_reservedBits v }

/-- A command's fault: CAUSE was 0, so the lines were at rest, and they stay there. -/
theorem raiseFault (hi : s.Inv) (hf : s.faulted = false) (c : Cause) (info : Word) : (raiseFault c info s).Inv :=
  { hi with
    noFault := fun h => by simp at h
    causeCodes := fun _ => causeCode_range c
    linesRest := fun _ => hi.linesRest (by simp [(hi.noFault hf).1]) }

theorem timeStep (hi : s.Inv) : (timeStep s).Inv :=
  { hi with
    due := fun ha => by
      have := hi.due ha
      simp only [timeStep_srDue, timeStep_now]
      omega }

/-- A pulse ends with its line low, where every clock rests (R146). -/
theorem pulse (hi : s.Inv) (l : OutLine) (hl : l ≠ .adcCs) : (pulse l s).Inv :=
  { hi with
    linesRest := fun hc => by
      obtain ⟨hcs, hclk, hsh, hla⟩ := hi.linesRest hc
      cases l <;> simp_all [withLevel] }

theorem shiftOut (hi : s.Inv) (b : Level) : (shiftOut b s).Inv :=
  State.Inv.pulse (s := lineWrite .srData b s) { hi with } .srShclk (by decide)

theorem startFrame (hi : s.Inv) (u v : Byte) : (startFrame u v s).Inv :=
  { hi with
    idle := fun h => by simp at h
    due := fun _ => Nat.le_refl _ }

theorem advanceCursor (hi : s.Inv) (ha : s.srActive = true) : (advanceCursor s).Inv :=
  { hi with
    idle := fun h => by simp [ha] at h
    due := fun _ => Nat.le_refl _ }

/-- Starting a queued frame needs no busy engine: only the queue's tail is kept. -/
theorem nextFrame (hi : s.Inv) : (nextFrame s).Inv := by
  cases hq : s.fq with
  | nil =>
    rw [nextFrame_nil s hq]
    exact { hi with idle := fun _ => ⟨rfl, hq⟩, due := fun h => by cases h }
  | cons f rest =>
    have hlen : rest.length ≤ Config.fqDepth := by
      have := hi.queue
      rw [hq, List.length_cons] at this
      omega
    rw [nextFrame_cons s f rest hq]
    exact { hi with
            idle := fun h => by simp at h
            queue := hlen
            due := fun _ => Nat.le_refl _ }

theorem srStep (hi : s.Inv) (ha : s.srActive = true) : (srStep s).Inv := by
  by_cases hk : s.srCur.toNat < 15
  · rw [srStep_mid s hk]
    exact (hi.shiftOut _).advanceCursor ha
  · rw [srStep_last s hk]
    exact ((hi.shiftOut _).pulse .srLatch (by decide)).nextFrame

/-- The queue takes one more frame only where it is not full. -/
theorem acceptFrame (hi : s.Inv) (hq : ¬ queueFull s) (u v : Byte) : (acceptFrame u v s).Inv := by
  unfold Machine.acceptFrame
  split
  · next ha =>
    have hlen : s.fq.length < Config.fqDepth := lt_of_le_of_ne hi.queue fun h => hq ⟨ha, h⟩
    exact { hi with
            idle := fun h => by simp [ha] at h
            queue := by simpa using hlen }
  · exact hi.startFrame u v

/-- A conversation deselects the ADC, leaves its clock low (R111) and leaves the display driver alone. -/
theorem adcConversation (hi : s.Inv) (ch : Byte) : (adcConversation ch s).Inv := by
  have ho := adcConversation_only s ch
  have hlevels := adcReadBits_levels 10 0#10 (adcCommandPhase ch s) rfl
  constructor
  case idle => simpa only [ho.srActive, ho.srCur, ho.fq] using hi.idle
  case queue => simpa only [ho.fq] using hi.queue
  case noFault => simpa only [ho.faulted, ho.cause, ho.finfo] using hi.noFault
  case resultBits => exact (hi.writeResult_validResult _).resultBits
  case causeCodes => simpa only [ho.faulted, ho.cause] using hi.causeCodes
  case linesRest =>
    rw [ho.cause, ho.srShclk, ho.srLatch]
    intro hc
    obtain ⟨-, -, hsh, hla⟩ := hi.linesRest hc
    exact ⟨rfl, congrArg Levels.adcClk hlevels, hsh, hla⟩
  case due => simpa only [ho.srActive, ho.srDue, ho.now] using hi.due

theorem reset : State.reset.Inv where
  idle _ := ⟨rfl, rfl⟩
  queue := Nat.zero_le _
  noFault _ := ⟨rfl, rfl⟩
  resultBits := rfl
  causeCodes h := by cases h
  linesRest _ := ⟨rfl, rfl, rfl, rfl⟩
  due h := by cases h

/-- A reset leads to the invariant from any state: with a line missing CAUSE is 5, and the lines are free (R233). -/
theorem resetMachine (m : BitVec 7) (s : State) : (resetMachine m s).Inv := by
  by_cases hm : m = 0x7F#7
  · rw [hm, resetMachine_allLines]
    exact reset.withEnv _
  · rw [resetMachine_missing s m hm]
    exact { reset with
            noFault := fun h => by cases h
            causeCodes := fun _ => causeCode_range .config
            linesRest := fun h => absurd rfl h }

/-- Every move that is no reset keeps the invariant. -/
theorem moves {t : State} {a : Action} (hi : s.Inv) (h : Moves a s t) : t.Inv := by
  cases h with
  | read => exact hi.withEnv _
  | noEffect => exact hi
  | reject w e hf => exact hi.raiseFault hf _ _
  | range w i hf => exact hi.raiseFault hf _ _
  | sample w ch => exact hi.adcConversation ch
  | patfor => exact hi.writeResult_validResult _
  | overrun w u v hf => exact hi.raiseFault hf _ _
  | accept w u v hf hd hq => exact hi.acceptFrame hq _ _
  | setdark w d => exact hi.writeDark d
  | fire he => exact hi.srStep ((srEnabled_iff s).1 he).1
  | pass => exact hi
  | time => exact hi.timeStep

end State.Inv

/-- Settles O47: the reset state is idle, fault-free and at rest. -/
theorem invHoldsAtReset : Obligations.InvHoldsAtReset := State.Inv.reset

/-- Settles O48: a reset leads to the invariant from anywhere, and every other move keeps it. -/
theorem stepKeepsInv : Obligations.StepKeepsInv := by
  intro s t hi h
  rcases runAction_moves (consumeAction s) t (nextAction s) h with ⟨m, -, rfl⟩ | hm
  · exact State.Inv.resetMachine m _
  · exact hi.consumeAction.moves hm


/-! ## What a move that is no reset can change -/

/-- A FAULTED machine only answers reads and counts time (R207). -/
theorem Moves.of_faulted {a : Action} {s t : State} (h : Moves a s t) (hf : s.faulted = true) :
    t = s ∨ (∃ off, t = reply off (readValue off s) s) ∨ t = timeStep s := by
  cases h with
  | read off => exact .inr (.inl ⟨off, rfl⟩)
  | noEffect | pass => exact .inl rfl
  | time => exact .inr (.inr rfl)
  | fire he => simp [((srEnabled_iff s).1 he).2.1] at hf
  | reject w e hs | range w i hs | sample w ch hs | patfor w n k hs | overrun w u v hs | accept w u v hs
  | setdark w d hs => simp [hs] at hf

/-- DARK changes only where a SETDARK runs, and then to its operand (R26). -/
theorem Moves.dark {a : Action} {s t : State} (h : Moves a s t) :
    t.dark = s.dark
      ∨ s.faulted = false ∧ ∃ w, a = .host (.write 0x00 32 w) ∧ decode w = .ok (.setdark t.dark) := by
  cases h with
  | setdark w d hf hd => exact .inr ⟨hf, w, rfl, hd⟩
  | sample w ch => exact .inl (adcConversation_only s ch).dark
  | accept w u v => exact .inl (acceptFrame_only s _ v).dark
  | fire => exact .inl (srStep_only s).dark
  | read | noEffect | reject | range | patfor | overrun | pass | time => exact .inl rfl

/-- RESULT changes only where a SAMPLE or a PATFOR runs (R27). -/
theorem Moves.result {a : Action} {s t : State} (h : Moves a s t) :
    t.result = s.result
      ∨ s.faulted = false
        ∧ ∃ w x, a = .host (.write 0x00 32 w) ∧ (decode w = .ok (.sample x) ∨ decode w = .ok (.patfor x)) := by
  cases h with
  | sample w ch hf hd => exact .inr ⟨hf, w, ch, rfl, .inl hd⟩
  | patfor w n k hf hd => exact .inr ⟨hf, w, n, rfl, .inr hd⟩
  | accept w u v => exact .inl (acceptFrame_only s _ v).result
  | fire => exact .inl (srStep_only s).result
  | read | noEffect | reject | range | overrun | setdark | pass | time => exact .inl rfl

/-- NOW advances in a TIME step, by one, and in no other move (R36). -/
theorem Moves.now {a : Action} {s t : State} (h : Moves a s t) :
    t.now = s.now + (if a = .time then 1 else 0) := by
  cases h with
  | time => rfl
  | sample w ch => simpa using (adcConversation_only s ch).now
  | accept w u v => simpa using (acceptFrame_only s _ v).now
  | fire => simpa using (srStep_only s).now
  | read | noEffect | reject | range | patfor | overrun | setdark | pass => simp

/-- Settles O40: what a FAULTED machine still does leaves the fault registers alone. -/
theorem onlyResetLeavesFaulted : Obligations.OnlyResetLeavesFaulted := by
  intro s t hf hr h
  rcases (step_moves s t hr h).of_faulted (by simpa using hf) with rfl | ⟨off, rfl⟩ | rfl <;> simp [hf]

/-- Settles O49, from the one move that writes DARK. -/
theorem onlySetdarkChangesDark : Obligations.OnlySetdarkChangesDark := by
  intro s t hr h hne
  simpa [hne] using (step_moves s t hr h).dark

/-- Settles O50, from the two moves that write RESULT. -/
theorem onlySampleAndPatforChangeResult : Obligations.OnlySampleAndPatforChangeResult := by
  intro s t hr h hne
  simpa [hne] using (step_moves s t hr h).result

/-- Settles O51, from the one move that writes NOW. -/
theorem onlyTimeAdvancesNow : Obligations.OnlyTimeAdvancesNow := by
  intro s t hr h
  simpa using (step_moves s t hr h).now

/-! ## The line trace: what a move appends (R40), on whose lines (R24), and the levels it leaves (R25) -/

/-- The level of the line `l` after an event, from the level `v` before it. -/
def levelAfterEvent (l : OutLine) (v : Level) (e : LineEvent) : Level :=
  match e with
  | .W m b => if m = l then b else v
  | .R _ _ => v

/-- From `s` to `t` the events of `block` happened, and nothing else drove a line. -/
structure Appends (block : List LineEvent) (s t : State) : Prop where
  trace : t.trace = s.trace ++ block
  levels : ∀ l, levelOf l t.levels = block.foldl (levelAfterEvent l) (levelOf l s.levels)

theorem Appends.nil {s t : State} (htr : t.trace = s.trace) (hlv : t.levels = s.levels) : Appends [] s t :=
  ⟨by simp [htr], fun l => by simp [hlv]⟩

theorem Appends.trans {b c : List LineEvent} {s t u : State} (h : Appends b s t) (k : Appends c t u) :
    Appends (b ++ c) s u :=
  ⟨by rw [k.trace, h.trace, List.append_assoc], fun l => by rw [k.levels, h.levels, List.foldl_append]⟩

theorem Appends.of_lineWrite (l : OutLine) (v : Level) (s : State) : Appends [.W l v] s (lineWrite l v s) :=
  ⟨rfl, fun m => by simp [levelAfterEvent, eq_comm]⟩

theorem Appends.of_lineRead (s : State) : Appends [.R .adcDout (nextDout s)] s (lineRead s) :=
  ⟨rfl, fun m => by simp [levelAfterEvent]⟩

theorem Appends.of_pulse (l : OutLine) (s : State) : Appends [.W l true, .W l false] s (pulse l s) :=
  (Appends.of_lineWrite l true s).trans (.of_lineWrite l false _)

theorem Appends.of_shiftOut (b : Level) (s : State) : Appends (frameBitEvents b) s (shiftOut b s) :=
  (Appends.of_lineWrite .srData b s).trans (.of_pulse .srShclk _)

theorem Appends.of_adcSendBits (bits : List Level) :
    ∀ s : State, Appends (bits.flatMap commandBitEvents) s (adcSendBits bits s) := by
  induction bits with
  | nil => intro s; exact .nil rfl rfl
  | cons b bits ih =>
    intro s
    exact ((Appends.of_lineWrite .adcDin b s).trans (.of_pulse .adcClk _)).trans (ih (adcSendBit s b))

theorem Appends.of_adcReadBits (n : Nat) :
    ∀ (r : BitVec 10) (s : State),
      Appends ((doutDraws n s).flatMap resultBitEvents) s (adcReadBits n r s).2 := by
  induction n with
  | zero => intro r s; exact .nil rfl rfl
  | succ n ih =>
    intro r s
    have hread := (Appends.of_pulse .adcClk s).trans (.of_lineRead _)
    have hrest := ih (shiftIn r (nextDout (pulse .adcClk s))) (lineRead (pulse .adcClk s))
    have henv : (lineRead (pulse .adcClk s)).env = (consumeDout s).env := consumeDout_of_env (pulse_env s .adcClk)
    rw [nextDout_of_env (pulse_env s .adcClk)] at hread
    rw [doutDraws_of_env n henv] at hrest
    exact hread.trans hrest

/-- A conversation is R102's events, with the levels ENV supplied. -/
theorem Appends.of_adcConversation (ch : Byte) (s : State) :
    Appends (sampleEvents ch (doutDraws 10 s)) s (adcConversation ch s) := by
  have hselect := ((Appends.of_lineWrite .adcCs true s).trans (.of_lineWrite .adcClk false _)).trans
    (.of_lineWrite .adcCs false _)
  have hsend := Appends.of_adcSendBits (adcCommandBits ch) (adcSelect s)
  have hread := Appends.of_adcReadBits 10 0#10 (adcCommandPhase ch s)
  rw [doutDraws_of_env 10 (adcCommandPhase_env s ch)] at hread
  have hall := (((hselect.trans hsend).trans (.of_pulse .adcClk _)).trans hread).trans
    (.of_lineWrite .adcCs true _)
  exact ⟨hall.trace, hall.levels⟩

theorem sampleEvents_onAdc (ch : Byte) (bits : List Level) :
    (sampleEvents ch bits).all (fun e => e.onAdc) = true := by
  simp [sampleEvents, commandBitEvents, resultBitEvents, LineEvent.onAdc, isAdcLine]

theorem Appends.of_nextFrame (s : State) : Appends [] s (nextFrame s) := by
  unfold nextFrame
  split <;> exact .nil rfl rfl

/-- An SR_STEP is one frame bit's events, and after the last bit the latch pulse (R138). -/
theorem Appends.of_srStep (s : State) :
    Appends (frameBitEvents (currentBit s) ++ if s.srCur.toNat < 15 then [] else latchEvents) s (srStep s) := by
  have hbit := Appends.of_shiftOut (currentBit s) s
  split
  · next hk =>
    rw [srStep_mid s hk]
    exact hbit.trans (.nil rfl rfl)
  · next hk =>
    rw [srStep_last s hk]
    exact hbit.trans ((Appends.of_pulse .srLatch _).trans (.of_nextFrame _))

theorem srStepEvents_onDisplay (b : Level) (k : Nat) :
    (frameBitEvents b ++ if k < 15 then [] else latchEvents).all (fun e => !e.onAdc) = true := by
  split <;> rfl

/-- What a move appends: nothing, an SR_STEP's events, or a SAMPLE's (R40, R108). -/
theorem Moves.appends {a : Action} {s t : State} (h : Moves a s t) :
    ∃ block, Appends block s t
      ∧ (block = []
        ∨ (a = .seq ∧ srEnabled s = true ∧ block.all (fun e => !e.onAdc) = true)
        ∨ (∃ w ch, a = .host (.write 0x00 32 w) ∧ decode w = .ok (.sample ch)
            ∧ block.all (fun e => e.onAdc) = true)) := by
  cases h with
  | fire he => exact ⟨_, .of_srStep s, .inr (.inl ⟨rfl, he, srStepEvents_onDisplay _ _⟩)⟩
  | sample w ch hf hd =>
    exact ⟨_, .of_adcConversation ch s, .inr (.inr ⟨w, ch, rfl, hd, sampleEvents_onAdc _ _⟩)⟩
  | accept w u v => exact ⟨[], .nil (acceptFrame_trace s _ v) (acceptFrame_levels s _ v), .inl rfl⟩
  | read | noEffect | reject | range | patfor | overrun | setdark | pass | time =>
    exact ⟨[], .nil rfl rfl, .inl rfl⟩

/-- Settles O53: the block a move appends is empty, or an SR_STEP's, or a SAMPLE's. -/
theorem linesHaveOneOwner : Obligations.LinesHaveOneOwner := by
  intro s t hr h
  obtain ⟨block, happ, howner⟩ := (step_moves s t hr h).appends
  exact ⟨block, by simpa using happ.trace, by simpa using howner⟩

/-- Settles O54: no move drives a line but by an event of the block it appends. -/
theorem levelIsLastWrite : Obligations.LevelIsLastWrite := by
  intro s t hr h
  obtain ⟨block, happ, -⟩ := (step_moves s t hr h).appends
  refine ⟨block, by simpa using happ.trace, fun l => ?_⟩
  have hl := happ.levels l
  rw [consumeAction_levels] at hl
  exact hl

/-! ## SR_STEP and the Dark-State Flag (R26, R162) -/

/-- The bit sent away from bit 4 is the frame's own (R134). -/
theorem sentBit_of_ne_four (p : DarkSamplePoint) (d e : Level) (u v : Byte) (k : Nat) (hk : k ≠ 4) :
    sentBit p d u v k = sentBit p e u v k := by
  cases p <;> simp [sentBit, hk]

/-- DARK has no part in which frame is next. -/
theorem nextFrame_writeDark (s : State) (d : Level) : nextFrame (writeDark d s) = writeDark d (nextFrame s) := by
  unfold nextFrame
  rw [writeDark_fq]
  split <;> rfl

/-- Nothing of an SR_STEP but the bit it sends reads DARK. -/
theorem srStep_writeDark (s : State) (d : Level) (hbit : currentBit (writeDark d s) = currentBit s) :
    srStep (writeDark d s) = writeDark d (srStep s) := by
  unfold srStep
  rw [hbit, writeDark_srCur]
  split
  · rfl
  · exact nextFrame_writeDark (pulse .srLatch (shiftOut (currentBit s) s)) d

/-- Settles O33: the bit at the cursor does not depend on DARK, and DARK enters nowhere else. -/
theorem darkReadOnlyAtBitFour : Obligations.DarkReadOnlyAtBitFour := by
  intro s d he hk
  have hcur : s.srCur.toNat ≠ 4 := fun h => hk (BitVec.eq_of_toNat_eq h)
  have hbit : currentBit (writeDark d s) = currentBit s := sentBit_of_ne_four _ _ _ _ _ _ hcur
  calc runAction .seq (writeDark d s)
      = .next (srStep (writeDark d s)) := congrArg Host.Outcome.next (if_pos he)
    _ = .next (writeDark d (srStep s)) := by rw [srStep_writeDark s d hbit]

/-! ## Reset (R43, R230 to R233) -/

/-- The level of a line after a reset, under any mask: the line's reset level where the line is available. -/
theorem resetMachine_levelOf (m : BitVec 7) (s : State) (l : OutLine) (hl : m.getLsbD (lineId l) = true) :
    levelOf l (resetMachine m s).levels = levelOf l Levels.reset := by
  by_cases hm : m = 0x7F#7
  · rw [hm, resetMachine_allLines]
    rfl
  · rw [resetMachine_missing s m hm]
    cases l <;> exact if_pos hl

/-- The mask of missing lines by its value. -/
theorem missingLines_eq (m : BitVec 7) : missingLines m = BitVec.ofNat 32 (127 - m.toNat) := by
  apply BitVec.eq_of_toNat_eq
  simp [missingLines]

/-- The fault registers after a reset (R233). -/
theorem resetMachine_faultRegisters (m : BitVec 7) (s : State) :
    (resetMachine m s).faulted = decide (m ≠ 0x7F#7)
      ∧ (resetMachine m s).cause = (if m = 0x7F#7 then 0#32 else 5#32)
      ∧ (resetMachine m s).finfo = BitVec.ofNat 32 (127 - m.toNat) := by
  by_cases hm : m = 0x7F#7
  · subst hm
    exact ⟨rfl, rfl, rfl⟩
  · rw [resetMachine_missing s m hm, ← missingLines_eq]
    exact ⟨by simp [hm], by simp [hm, causeCode], rfl⟩

/-- Every element a reset clears under any mask: all but the line levels and the fault registers. -/
theorem resetMachine_cleared (m : BitVec 7) (s : State) :
    (resetMachine m s).dark = false ∧ (resetMachine m s).result = 0#32
      ∧ (resetMachine m s).srActive = false ∧ (resetMachine m s).srCur = 0#4
      ∧ (resetMachine m s).srU = 0#8 ∧ (resetMachine m s).srT = 0#8 ∧ (resetMachine m s).srDue = 0
      ∧ (resetMachine m s).fq = [] ∧ (resetMachine m s).now = 0 ∧ (resetMachine m s).trace = [] := by
  unfold resetMachine
  split <;> exact ⟨rfl, rfl, rfl, rfl, rfl, rfl, rfl, rfl, rfl, rfl⟩

/-- Settles O41, from the reset's levels, fault registers and cleared elements. -/
theorem resetLeavesTableValues : Obligations.ResetLeavesTableValues := by
  intro s m
  obtain ⟨hdark, hresult, hcleared⟩ := resetMachine_cleared m s
  obtain ⟨hfaulted, hcause, hfinfo⟩ := resetMachine_faultRegisters m s
  have hlevel := resetMachine_levelOf m s
  exact ⟨_, rfl, hlevel .adcCs, hlevel .adcClk, hlevel .adcDin, hlevel .srData, hlevel .srShclk, hlevel .srLatch,
    hdark, hresult, hfaulted, hcause, hfinfo, hcleared⟩

/-! ## The register block (R28 to R31, R51, R56) -/

/-- A 32-bit read at a register's offset hands the host the register's value. -/
theorem runAction_read (s : State) (off : Nat) (hoff : off < 0x20) (ha : off % 4 = 0) :
    runAction (.host (.read off 32)) s = .next (reply off (readValue off s) s) :=
  guardAccess_ok off 32 _ hoff rfl ha

/-- Concatenation by value: the low word's width scales the high word. -/
theorem toNat_append_eq_add {n m : Nat} (x : BitVec n) (y : BitVec m) :
    (x ++ y).toNat = x.toNat * 2 ^ m + y.toNat := by
  rw [BitVec.toNat_append, ← Nat.shiftLeft_add_eq_or_of_lt y.isLt, Nat.shiftLeft_eq]

/-- The fields of STATUS by value, where the queue's count fits its four bits. -/
theorem statusView_eq (s : State) (hq : s.fq.length ≤ 15) :
    statusView s = BitVec.ofNat 32 (s.srActive.toNat + 2 * s.dark.toNat + 4 * s.faulted.toNat
      + 16 * s.fq.length + 256 * s.srCur.toNat) := by
  apply BitVec.eq_of_toNat_eq
  have hcur := s.srCur.isLt
  have ha := s.srActive.toNat_lt
  have hd := s.dark.toNat_lt
  have hf := s.faulted.toNat_lt
  simp only [statusView, qcount, toNat_append_eq_add, BitVec.toNat_ofNat, BitVec.toNat_ofBool]
  omega

/-- Settles O43: each of the four offsets is in the window and aligned. -/
theorem registerReads : Obligations.RegisterReads := fun s =>
  ⟨runAction_read s 0x00 (by decide) rfl, runAction_read s 0x04 (by decide) rfl,
    runAction_read s 0x0C (by decide) rfl, runAction_read s 0x10 (by decide) rfl, fun _ _ => rfl⟩

/-- Settles O42: the read returns the view of STATUS, whose value is that of its fields. -/
theorem statusReadGivesFields : Obligations.StatusReadGivesFields := fun s hq => by
  rw [← statusView_eq s hq]
  exact runAction_read s 0x08 (by decide) rfl

end Sys2Proof.Machine

namespace Sys2Proof.Machine

/-! ## A SAMPLE beside an SR_STEP (R68, R114): what an SR_STEP reads and drives is none of the ADC sampler's -/

theorem OnlyAdc.symm {s t : State} (h : OnlyAdc s t) : OnlyAdc t s :=
  ⟨h.dark.symm, h.faulted.symm, h.cause.symm, h.finfo.symm, h.srActive.symm, h.srU.symm, h.srT.symm, h.srCur.symm,
    h.srDue.symm, h.fq.symm, h.now.symm, h.srData.symm, h.srShclk.symm, h.srLatch.symm⟩

/-- The same line driven in both states keeps their display parts equal. -/
theorem OnlyAdc.lineWrite_congr {s t : State} (h : OnlyAdc s t) (l : OutLine) (v : Level) :
    OnlyAdc (lineWrite l v s) (lineWrite l v t) := by
  cases l <;>
    exact { h with
            srData := by simp [withLevel, h.srData]
            srShclk := by simp [withLevel, h.srShclk]
            srLatch := by simp [withLevel, h.srLatch] }

theorem OnlyAdc.pulse_congr {s t : State} (h : OnlyAdc s t) (l : OutLine) : OnlyAdc (pulse l s) (pulse l t) :=
  (h.lineWrite_congr l true).lineWrite_congr l false

theorem OnlyAdc.shiftOut_congr {s t : State} (h : OnlyAdc s t) (b : Level) :
    OnlyAdc (shiftOut b s) (shiftOut b t) :=
  (h.lineWrite_congr .srData b).pulse_congr .srShclk

theorem OnlyAdc.advanceCursor_congr {s t : State} (h : OnlyAdc s t) : OnlyAdc (advanceCursor s) (advanceCursor t) :=
  { h with
    srCur := congrArg (· + 1#4) h.srCur
    srDue := congrArg (· + Config.bitDelay) h.now }

/-- Which frame is next, and when it is due, is read from the queue and NOW. -/
theorem OnlyAdc.nextFrame_congr {s t : State} (h : OnlyAdc s t) : OnlyAdc (nextFrame s) (nextFrame t) := by
  cases hq : s.fq with
  | nil =>
    rw [nextFrame_nil s hq, nextFrame_nil t (h.fq.trans hq)]
    exact { h with srActive := rfl, srCur := rfl }
  | cons f rest =>
    rw [nextFrame_cons s f rest hq, nextFrame_cons t f rest (h.fq.trans hq)]
    exact { h with
            srActive := rfl
            srU := rfl
            srT := rfl
            srCur := rfl
            fq := rfl
            srDue := congrArg (· + Config.bitDelay) h.now }

/-- The bit an SR_STEP sends is read from DARK and the shift engine. -/
theorem OnlyAdc.currentBit {s t : State} (h : OnlyAdc s t) : currentBit t = currentBit s := by
  simp only [Machine.currentBit, h.dark, h.srU, h.srT, h.srCur]

/-- Whether an SR_STEP is enabled is read from the shift engine, FAULTED and NOW (R221). -/
theorem OnlyAdc.srEnabled {s t : State} (h : OnlyAdc s t) : srEnabled t = srEnabled s := by
  simp only [Machine.srEnabled, armed, h.srActive, h.faulted, h.srDue, h.now]

/-- States that differ in the sampler's part alone still do after an SR_STEP of each. -/
theorem OnlyAdc.srStep_congr {s t : State} (h : OnlyAdc s t) : OnlyAdc (srStep s) (srStep t) := by
  have hbit := h.shiftOut_congr (Machine.currentBit s)
  by_cases hk : s.srCur.toNat < 15
  · rw [srStep_mid s hk, srStep_mid t (by rwa [h.srCur]), h.currentBit]
    exact hbit.advanceCursor_congr
  · rw [srStep_last s hk, srStep_last t (by rwa [h.srCur]), h.currentBit]
    exact (hbit.pulse_congr .srLatch).nextFrame_congr

/-- Where the sampler's own lines, RESULT and the environment agree as well, only the trace is left to differ. -/
theorem OnlyAdc.eq_but_trace {s t : State} (h : OnlyAdc s t) (hcs : t.levels.adcCs = s.levels.adcCs)
    (hclk : t.levels.adcClk = s.levels.adcClk) (hdin : t.levels.adcDin = s.levels.adcDin)
    (hresult : t.result = s.result) (henv : t.env = s.env) : { t with trace := [] } = { s with trace := [] } := by
  have hlevels : t.levels = s.levels := levels_ext _ _ fun l => by
    cases l
    exacts [hcs, hclk, hdin, h.srData, h.srShclk, h.srLatch]
  exact State.ext hlevels h.dark hresult h.faulted h.cause h.finfo h.srActive h.srU h.srT h.srCur h.srDue h.fq h.now rfl henv

theorem adcEvents_append (x y : List LineEvent) : adcEvents (x ++ y) = adcEvents x ++ adcEvents y :=
  List.filter_append x y

theorem displayEvents_append (x y : List LineEvent) : displayEvents (x ++ y) = displayEvents x ++ displayEvents y :=
  List.filter_append x y

/-- A block on the display lines is nothing to the ADC's. -/
theorem adcEvents_eq_nil {x : List LineEvent} (h : x.all (fun e => !e.onAdc) = true) : adcEvents x = [] := by
  simpa [adcEvents] using h

/-- A block on the ADC lines is nothing to the display driver's. -/
theorem displayEvents_eq_nil {x : List LineEvent} (h : x.all (fun e => e.onAdc) = true) : displayEvents x = [] := by
  simpa [displayEvents] using h

/-- A SAMPLE of a legal channel is one whole conversation. -/
theorem exec_sample_ok (s : State) (ch : Byte) (h : ch.toNat ≤ 7) :
    exec (.sample ch) s = .next (adcConversation ch s) :=
  if_neg (Nat.not_lt.2 h)

/-- The level a conversation leaves on a line depends on the level before it and the levels read. -/
theorem adcConversation_levelOf_congr {s t : State} (ch : Byte) (l : OutLine) (henv : t.env = s.env)
    (hl : levelOf l t.levels = levelOf l s.levels) :
    levelOf l (adcConversation ch t).levels = levelOf l (adcConversation ch s).levels := by
  rw [(Appends.of_adcConversation ch t).levels, (Appends.of_adcConversation ch s).levels, hl, doutDraws_of_env 10 henv]

/-- A SAMPLE and an SR_STEP leave the same state in either order, but for the trace (R68). -/
theorem adcConversation_srStep_comm (s : State) (ch : Byte) :
    { adcConversation ch (srStep s) with trace := [] } = { srStep (adcConversation ch s) with trace := [] } := by
  have hstep := srStep_only s
  have hlast := srStep_only (adcConversation ch s)
  have hdisplay : OnlyAdc (adcConversation ch (srStep s)) (srStep (adcConversation ch s)) :=
    (adcConversation_only (srStep s) ch).symm.trans (adcConversation_only s ch).srStep_congr
  have hlevel := fun l => adcConversation_levelOf_congr ch l hstep.env
  have hdraws := doutDraws_of_env 10 hstep.env
  refine (hdisplay.eq_but_trace ?_ ?_ ?_ ?_ ?_).symm
  · exact hlast.adcCs.trans (hlevel .adcCs hstep.adcCs).symm
  · exact hlast.adcClk.trans (hlevel .adcClk hstep.adcClk).symm
  · exact hlast.adcDin.trans (hlevel .adcDin hstep.adcDin).symm
  · rw [hlast.result, adcConversation_result, adcConversation_result, hdraws]
  · rw [hlast.env, adcConversation_env, adcConversation_env, consumeDouts_of_env 10 hstep.env]

/-- Settles O14: each of the two leaves alone what the other reads and drives, so their blocks are the same in either order,
and each block lies on one part's lines. -/
theorem sampleAndSrStepCommutePerLine : Obligations.SampleAndSrStepCommutePerLine := by
  intro s ch hch he
  have honly := adcConversation_only s ch
  have hfirst := (Appends.of_srStep s).trans (.of_adcConversation ch (srStep s))
  have hsecond := (Appends.of_adcConversation ch s).trans (.of_srStep (adcConversation ch s))
  rw [doutDraws_of_env 10 (srStep_only s).env] at hfirst
  rw [honly.currentBit, honly.srCur] at hsecond
  have hadc := adcEvents_eq_nil (srStepEvents_onDisplay (currentBit s) s.srCur.toNat)
  have hdisplay := displayEvents_eq_nil (sampleEvents_onAdc ch (doutDraws 10 s))
  refine ⟨_, _, exec_sample_ok _ ch hch, ⟨_, exec_sample_ok s ch hch, honly.srEnabled.trans he, rfl⟩,
    adcConversation_srStep_comm s ch, ?_, ?_⟩
  · rw [hfirst.trace, hsecond.trace]
    simp only [adcEvents_append, hadc, List.nil_append, List.append_nil]
  · rw [hfirst.trace, hsecond.trace]
    simp only [displayEvents_append, hdisplay, List.nil_append, List.append_nil]

/-! ## SR_BUSY = 0 (R63, R140) -/

theorem pendingFrames_idle (s : State) (h : s.srActive = false) : pendingFrames s = [] := by
  unfold pendingFrames
  rw [h]

/-- Settles O32: an idle engine has no frame pending and its cursor at 0, so nothing follows the latched frames' blocks. -/
theorem notBusyMeansAllLatched : Obligations.NotBusyMeansAllLatched := by
  intro accepted s hi hw ha
  obtain ⟨latched, sent, current, haccepted, hsent, htrace, -⟩ := hw
  rw [pendingFrames_idle s ha, List.append_nil] at haccepted
  rw [(hi.idle ha).1, show frameStart current (0#4).toNat = [] from rfl, List.append_nil] at htrace
  exact ⟨sent, haccepted ▸ hsent, htrace⟩

/-! ## The CMD port (R55) -/

/-- A step with an action lined up runs that action on the state it is taken from. -/
theorem step_of_inputs_cons (s : State) (a : Action) (rest : List Action) (h : s.env.inputs = a :: rest) :
    step s = runAction a { s with env := { s.env with inputs := rest } } := by
  rw [step, agentStep, nextAction_cons s a rest h, consumeAction_cons s a rest h]

/-- Settles O6: the lined-up write reaches the CMD port, which runs what it decodes. -/
theorem stepRunsDecodedCommand : Obligations.StepRunsDecodedCommand := by
  intro s w i rest hf hin hd
  rw [step_of_inputs_cons s _ rest hin, runAction_cmdWrite]
  exact cmdWrite_ok _ w i hf hd

/-- A table row's bits give a command where the word they make decodes to it. -/
theorem decodeTableWord_eq_some {nbits w : Nat} {i : Instr} (h : decodeTableWord nbits w = some i) :
    decode (BitVec.ofNat 32 (w % 2 ^ nbits)) = .ok i := by
  unfold decodeTableWord at h
  split at h
  · next j hj => rw [hj, Option.some.inj h]
  · cases h

/-- Settles O7: the placed word is the coming write to CMD, and taking it gives back the state it was placed in. -/
theorem placedWordRunsNext : Obligations.PlacedWordRunsNext := by
  intro s nbits w i hf hd
  exact stepRunsDecodedCommand (s.withFetchWord nbits w) _ i s.env.inputs hf rfl (decodeTableWord_eq_some hd)

/-! ## The register window (R50 to R54) -/

/-- A 32-bit write at a register's offset other than CMD's changes nothing. -/
theorem runAction_write_ignored (s : State) (off : Nat) (v : Word) (hoff : off < 0x20) (ha : off % 4 = 0) (h0 : off ≠ 0) :
    runAction (.host (.write off 32 v)) s = .next s :=
  (guardAccess_ok off 32 _ hoff rfl ha).trans (registerWrite_other s off v h0)

/-- The reserved offsets read 0 (R53). -/
theorem readValue_reserved (s : State) {off : Nat} (h : off ∈ [0x14, 0x18, 0x1C]) : readValue off s = 0#32 := by
  simp only [List.mem_cons, List.not_mem_nil, or_false] at h
  obtain rfl | rfl | rfl := h <;> rfl

/-- Settles O44: each offset is in the window and aligned, the reserved ones and CMD read 0, and none but CMD is written. -/
theorem harmlessAccesses : Obligations.HarmlessAccesses := by
  intro s v
  refine ⟨fun off hoff => ?_, fun off hoff => ?_, runAction_read s 0x00 (by decide) rfl⟩
  · obtain ⟨hin, ha, h0⟩ : off < 0x20 ∧ off % 4 = 0 ∧ off ≠ 0 := by
      revert off
      decide
    have hread := runAction_read s off hin ha
    rw [readValue_reserved s hoff] at hread
    exact ⟨hread, runAction_write_ignored s off v hin ha h0⟩
  · obtain ⟨hin, ha, h0⟩ : off < 0x20 ∧ off % 4 = 0 ∧ off ≠ 0 := by
      revert off
      decide
    exact runAction_write_ignored s off v hin ha h0

theorem guardAccess_outside (off width : Nat) (k : Host.Outcome State Fault Refusal) (h : 0x20 ≤ off) :
    guardAccess off width k = .fault (.outsideWindow off) :=
  if_pos h

theorem guardAccess_width (off width : Nat) (k : Host.Outcome State Fault Refusal) (h : off < 0x20) (hw : width ≠ 32) :
    guardAccess off width k = .refused (.accessWidth width) := by
  rw [guardAccess, if_neg (Nat.not_le.2 h), if_pos hw]

theorem guardAccess_misaligned (off width : Nat) (k : Host.Outcome State Fault Refusal) (h : off < 0x20) (hw : width = 32)
    (ha : off % 4 ≠ 0) : guardAccess off width k = .refused (.misalignedOffset off) := by
  rw [guardAccess, if_neg (Nat.not_le.2 h), if_neg (not_not.2 hw), if_pos ha]

/-- Settles O45: a read and a write pass the same checks, so each stops under the check's own name. -/
theorem accessesWithoutMeaningStop : Obligations.AccessesWithoutMeaningStop := fun _ off width _ =>
  ⟨fun h => ⟨guardAccess_outside off width _ h, guardAccess_outside off width _ h⟩,
    fun h hw => ⟨guardAccess_width off width _ h hw, guardAccess_width off width _ h hw⟩,
    fun h hw ha => ⟨guardAccess_misaligned off width _ h hw ha, guardAccess_misaligned off width _ h hw ha⟩⟩

/-- Settles O46, in and out of the window. -/
theorem windowIsThirtyTwoBytes : Obligations.WindowIsThirtyTwoBytes := by
  intro addr off
  unfold windowOffset
  split
  · rw [Option.some_inj]
    omega
  · simp only [reduceCtorEq, false_iff]
    omega

end Sys2Proof.Machine

namespace Sys2Proof.Machine

open Sys2Proof.Laws.EncodeFields (opcode operandArea)

/-! ## The fields of a command word by value (R71, R72, R75) -/

theorem opField_eq_iff (w : Word) (k : BitVec 4) : opField w = k ↔ w.toNat / 2 ^ 28 = k.toNat := by
  have hlt := w.isLt
  rw [← BitVec.toNat_inj, opField, BitVec.extractLsb'_toNat, Nat.shiftRight_eq_div_pow,
    Nat.mod_eq_of_lt (by omega)]

/-- A field of `n` bits from bit `k` up is zero where its value is. -/
theorem extractLsb'_eq_zero_iff (w : Word) (k n : Nat) : w.extractLsb' k n = 0#n ↔ w.toNat / 2 ^ k % 2 ^ n = 0 := by
  rw [← BitVec.toNat_inj, BitVec.extractLsb'_toNat, Nat.shiftRight_eq_div_pow, BitVec.toNat_zero]

theorem rsvField_eq_zero_iff (w : Word) : rsvField w = 0#12 ↔ w.toNat / 2 ^ 16 % 2 ^ 12 = 0 :=
  extractLsb'_eq_zero_iff w 16 12

theorem rsv15Field_eq_zero_iff (w : Word) : rsv15Field w = 0#15 ↔ w.toNat / 2 ^ 1 % 2 ^ 15 = 0 :=
  extractLsb'_eq_zero_iff w 1 15

theorem highByte_eq_zero_iff (w : Word) : highByte w = 0#8 ↔ w.toNat / 2 ^ 8 % 2 ^ 8 = 0 :=
  extractLsb'_eq_zero_iff w 8 8

theorem highByte_eq_ofNat (w : Word) : highByte w = BitVec.ofNat 8 (w.toNat / 256) := by
  rw [highByte, BitVec.extractLsb', Nat.shiftRight_eq_div_pow]

theorem lowByte_eq_ofNat (w : Word) : lowByte w = BitVec.ofNat 8 w.toNat := rfl

theorem bitZero_eq_beq (w : Word) : bitZero w = (w.toNat % 2 == 1) := by
  rw [bitZero, BitVec.getLsbD, Nat.testBit_zero]
  rfl

/-- The reserved bits of format X8 are bits 27:8. -/
theorem reservedX8_eq_zero_iff (w : Word) : w.toNat / 2 ^ 8 % 2 ^ 20 = 0 ↔ rsvField w = 0#12 ∧ highByte w = 0#8 := by
  rw [rsvField_eq_zero_iff, highByte_eq_zero_iff]
  omega

/-- The reserved bits of format X1 are bits 27:1. -/
theorem reservedX1_eq_zero_iff (w : Word) : w.toNat / 2 ^ 1 % 2 ^ 27 = 0 ↔ rsvField w = 0#12 ∧ rsv15Field w = 0#15 := by
  rw [rsvField_eq_zero_iff, rsv15Field_eq_zero_iff]
  omega

/-! ## The decoder by value: one equation per OP (R74) -/

variable {w : Word}

/-- R77: an OP that is no command's is rejected whatever the other bits are. -/
theorem decode_of_illegalOp (h : w.toNat / 2 ^ 28 = 0 ∨ 4 < w.toNat / 2 ^ 28) : decode w = .error .illegalOp := by
  refine if_pos ?_
  simp only [ne_eq, opField_eq_iff, BitVec.toNat_ofNat]
  omega

theorem decode_of_op_one (h : w.toNat / 2 ^ 28 = 1) :
    decode w = if w.toNat / 2 ^ 8 % 2 ^ 20 = 0 then .ok (.sample (BitVec.ofNat 8 w.toNat))
      else .error .reservedBits := by
  have hop : opField w = 1#4 := (opField_eq_iff w _).2 h
  simp only [reservedX8_eq_zero_iff, ite_and]
  simp [decode, hop, lowByte_eq_ofNat]

theorem decode_of_op_two (h : w.toNat / 2 ^ 28 = 2) :
    decode w = if w.toNat / 2 ^ 8 % 2 ^ 20 = 0 then .ok (.patfor (BitVec.ofNat 8 w.toNat))
      else .error .reservedBits := by
  have hop : opField w = 2#4 := (opField_eq_iff w _).2 h
  simp only [reservedX8_eq_zero_iff, ite_and]
  simp [decode, hop, lowByte_eq_ofNat]

theorem decode_of_op_three (h : w.toNat / 2 ^ 28 = 3) :
    decode w = if w.toNat / 2 ^ 16 % 2 ^ 12 = 0
        then .ok (.display (BitVec.ofNat 8 w.toNat) (BitVec.ofNat 8 (w.toNat / 256)))
      else .error .reservedBits := by
  have hop : opField w = 3#4 := (opField_eq_iff w _).2 h
  simp [decode, hop, rsvField_eq_zero_iff, lowByte_eq_ofNat, highByte_eq_ofNat]

theorem decode_of_op_four (h : w.toNat / 2 ^ 28 = 4) :
    decode w = if w.toNat / 2 ^ 1 % 2 ^ 27 = 0 then .ok (.setdark (w.toNat % 2 == 1)) else .error .reservedBits := by
  have hop : opField w = 4#4 := (opField_eq_iff w _).2 h
  simp only [reservedX1_eq_zero_iff, ite_and]
  simp [decode, hop, bitZero_eq_beq]

/-! ## Words and commands are one-to-one (R79, R85) -/

theorem toNat_encode (i : Instr) : (encode i).toNat = opcode i * 2 ^ 28 + operandArea i := by
  cases i with
  | sample ch => exact Laws.EncodeFields.sample ch
  | patfor n => exact Laws.EncodeFields.patfor n
  | display upat tpat => exact Laws.EncodeFields.display upat tpat
  | setdark d => exact Laws.EncodeFields.setdark d

/-- A command's word is the one with its OP and its operand area and zeros between. -/
theorem encode_eq_iff (i : Instr) : encode i = w ↔ w.toNat = opcode i * 2 ^ 28 + operandArea i := by
  rw [← BitVec.toNat_inj, toNat_encode, eq_comm]

theorem byte_ofNat_eq_iff (v : Nat) (x : Byte) : BitVec.ofNat 8 v = x ↔ v % 256 = x.toNat := by
  rw [← BitVec.toNat_inj, BitVec.toNat_ofNat]

theorem bit_beq_eq_iff (v : Nat) (d : Level) : (v % 2 == 1) = d ↔ v % 2 = d.toNat := by
  rcases Nat.mod_two_eq_zero_or_one v with h | h <;> cases d <;> simp [h]

/-- The word's OP picks the command's row, its reserved bits are 0, and each operand is read back by value. -/
theorem decode_of_value {i : Instr} (hv : w.toNat = opcode i * 2 ^ 28 + operandArea i) : decode w = .ok i := by
  cases i with
  | sample ch =>
    have hch := ch.isLt
    simp only [opcode, operandArea] at hv
    rw [decode_of_op_one (by omega), if_pos (by omega), (byte_ofNat_eq_iff w.toNat ch).2 (by omega)]
  | patfor n =>
    have hn := n.isLt
    simp only [opcode, operandArea] at hv
    rw [decode_of_op_two (by omega), if_pos (by omega), (byte_ofNat_eq_iff w.toNat n).2 (by omega)]
  | display upat tpat =>
    have hu := upat.isLt
    have ht := tpat.isLt
    simp only [opcode, operandArea] at hv
    rw [decode_of_op_three (by omega), if_pos (by omega), (byte_ofNat_eq_iff w.toNat upat).2 (by omega),
      (byte_ofNat_eq_iff (w.toNat / 256) tpat).2 (by omega)]
  | setdark d =>
    have hd := d.toNat_lt
    simp only [opcode, operandArea] at hv
    rw [decode_of_op_four (by omega), if_pos (by omega), (bit_beq_eq_iff w.toNat d).2 (by omega)]

/-- Settles O2: the encoding has the value that the decoder reads as its command. -/
theorem decodeEncodeAgree : Obligations.DecodeEncodeAgree := fun i =>
  decode_of_value (toNat_encode i)

/-- Settles O3: an accepted word's value is its row's OP and the operands read, no other bit being 1. -/
theorem decodedWordIsItsEncoding : Obligations.DecodedWordIsItsEncoding := by
  intro w i hd
  rw [encode_eq_iff]
  obtain h | h | h | h | h : (w.toNat / 2 ^ 28 = 0 ∨ 4 < w.toNat / 2 ^ 28) ∨ w.toNat / 2 ^ 28 = 1
      ∨ w.toNat / 2 ^ 28 = 2 ∨ w.toNat / 2 ^ 28 = 3 ∨ w.toNat / 2 ^ 28 = 4 := by omega
  · rw [decode_of_illegalOp h] at hd
    cases hd
  · rw [decode_of_op_one h] at hd
    split at hd <;> cases hd
    simp only [opcode, operandArea, BitVec.toNat_ofNat]
    omega
  · rw [decode_of_op_two h] at hd
    split at hd <;> cases hd
    simp only [opcode, operandArea, BitVec.toNat_ofNat]
    omega
  · rw [decode_of_op_three h] at hd
    split at hd <;> cases hd
    simp only [opcode, operandArea, BitVec.toNat_ofNat]
    omega
  · rw [decode_of_op_four h] at hd
    split at hd <;> cases hd
    simp only [opcode, operandArea, ← (bit_beq_eq_iff w.toNat _).1 rfl]
    omega

theorem decode_eq_ok_iff (i : Instr) : decode w = .ok i ↔ w.toNat = opcode i * 2 ^ 28 + operandArea i :=
  ⟨fun h => (encode_eq_iff i).1 (decodedWordIsItsEncoding w i h), decode_of_value⟩

/-! ## Masks (R85) -/

/-- A mask of `n` bits from bit `k` up keeps the field there and clears the rest. -/
theorem toNat_and_fieldMask (w : Word) {m : Word} (k n : Nat) (hm : m.toNat = (2 ^ n - 1) <<< k) :
    (w &&& m).toNat = w.toNat / 2 ^ k % 2 ^ n * 2 ^ k := by
  rw [BitVec.toNat_and, hm, ← Nat.shiftLeft_eq, ← Nat.and_two_pow_sub_one_eq_mod, Nat.shiftLeft_and_distrib,
    ← Nat.shiftRight_eq_div_pow]
  refine Nat.eq_of_testBit_eq fun i => ?_
  by_cases hk : k ≤ i <;> simp [hk]

/-- Under such a mask a word matches a pattern of that field exactly where its field is the pattern's. -/
theorem and_fieldMask_eq_iff (w : Word) {m p : Word} (k n f : Nat) (hm : m.toNat = (2 ^ n - 1) <<< k)
    (hp : p.toNat = f * 2 ^ k) : w &&& m = p ↔ w.toNat / 2 ^ k % 2 ^ n = f := by
  rw [← BitVec.toNat_inj, toNat_and_fieldMask w k n hm, hp, Nat.mul_left_inj (Nat.two_pow_pos k).ne']

/-- R85's table: the rows of the four commands, matched under their masks. -/
theorem decode_eq_ok_iff_row (i : Instr) : decode w = .ok i ↔
    (w &&& 0xFFFFFF00#32 = 0x10000000#32 ∧ i = .sample (BitVec.ofNat 8 w.toNat))
      ∨ (w &&& 0xFFFFFF00#32 = 0x20000000#32 ∧ i = .patfor (BitVec.ofNat 8 w.toNat))
      ∨ (w &&& 0xFFFF0000#32 = 0x30000000#32
          ∧ i = .display (BitVec.ofNat 8 w.toNat) (BitVec.ofNat 8 (w.toNat / 256)))
      ∨ (w &&& 0xFFFFFFFE#32 = 0x40000000#32 ∧ i = .setdark (w.toNat % 2 == 1)) := by
  rw [decode_eq_ok_iff, and_fieldMask_eq_iff w 8 24 0x100000 rfl rfl, and_fieldMask_eq_iff w 8 24 0x200000 rfl rfl,
    and_fieldMask_eq_iff w 16 16 0x3000 rfl rfl, and_fieldMask_eq_iff w 1 31 0x20000000 rfl rfl]
  have hw := w.isLt
  cases i with
  | sample ch =>
    have hch := ch.isLt
    simp only [opcode, operandArea, Instr.sample.injEq, eq_comm (a := ch), byte_ofNat_eq_iff, reduceCtorEq, and_false,
      or_false]
    omega
  | patfor n =>
    have hn := n.isLt
    simp only [opcode, operandArea, Instr.patfor.injEq, eq_comm (a := n), byte_ofNat_eq_iff, reduceCtorEq, and_false,
      or_false, false_or]
    omega
  | display upat tpat =>
    have hu := upat.isLt
    have ht := tpat.isLt
    simp only [opcode, operandArea, Instr.display.injEq, eq_comm (a := upat), eq_comm (a := tpat), byte_ofNat_eq_iff,
      reduceCtorEq, and_false, or_false, false_or]
    omega
  | setdark d =>
    have hd := d.toNat_lt
    simp only [opcode, operandArea, Instr.setdark.injEq, eq_comm (a := d), bit_beq_eq_iff, reduceCtorEq, and_false,
      false_or]
    omega

/-- Settles O4: a word is accepted by its row, so one that matches no row is rejected, and the CMD port raises the rejection. -/
theorem decodeFollowsMaskTable : Obligations.DecodeFollowsMaskTable := by
  refine fun w => ⟨decode_eq_ok_iff_row, fun ⟨hsample, hpatfor, hdisplay, hsetdark⟩ => ?_⟩
  cases hd : decode w with
  | error e => exact ⟨e, rfl, fun s hf => cmdWrite_error s w e hf hd⟩
  | ok i =>
    obtain ⟨h, -⟩ | ⟨h, -⟩ | ⟨h, -⟩ | ⟨h, -⟩ := (decode_eq_ok_iff_row i).1 hd
    · exact absurd h hsample
    · exact absurd h hpatfor
    · exact absurd h hdisplay
    · exact absurd h hsetdark

/-! ## Rejected words (R74, R77, R205) -/

/-- A 1 in the bits under a mask is a 1 in their field. -/
theorem and_fieldMask_ne_zero_iff (w : Word) {m : Word} (k n : Nat) (hm : m.toNat = (2 ^ n - 1) <<< k) :
    w &&& m ≠ 0#32 ↔ w.toNat / 2 ^ k % 2 ^ n ≠ 0 :=
  not_congr (and_fieldMask_eq_iff w k n 0 hm (Nat.zero_mul _).symm)

theorem decode_of_reservedBits
    (h : (w.toNat / 2 ^ 28 = 1 ∨ w.toNat / 2 ^ 28 = 2) ∧ w &&& 0x0FFFFF00#32 ≠ 0#32
      ∨ w.toNat / 2 ^ 28 = 3 ∧ w &&& 0x0FFF0000#32 ≠ 0#32
      ∨ w.toNat / 2 ^ 28 = 4 ∧ w &&& 0x0FFFFFFE#32 ≠ 0#32) : decode w = .error .reservedBits := by
  rw [and_fieldMask_ne_zero_iff w 8 20 rfl, and_fieldMask_ne_zero_iff w 16 12 rfl,
    and_fieldMask_ne_zero_iff w 1 27 rfl] at h
  obtain ⟨hop | hop, hres⟩ | ⟨hop, hres⟩ | ⟨hop, hres⟩ := h
  · rw [decode_of_op_one hop, if_neg hres]
  · rw [decode_of_op_two hop, if_neg hres]
  · rw [decode_of_op_three hop, if_neg hres]
  · rw [decode_of_op_four hop, if_neg hres]

/-- Settles O37: the CMD port raises the decoder's error with the word in FINFO. -/
theorem rejectedWordFaults : Obligations.RejectedWordFaults := fun s w hf =>
  ⟨fun h => cmdWrite_error s w .illegalOp hf (decode_of_illegalOp h),
    fun h => cmdWrite_error s w .reservedBits hf (decode_of_reservedBits h)⟩

/-! ## The assembler (R79) -/

/-- Or-ing an operand into bits that are 0 adds it. -/
theorem toNat_or_of_low {x y : Word} (k : Nat) (hx : x.toNat % 2 ^ k = 0) (hy : y.toNat < 2 ^ k) :
    (x ||| y).toNat = x.toNat + y.toNat := by
  obtain ⟨q, hq⟩ := Nat.dvd_of_mod_eq_zero hx
  rw [BitVec.toNat_or, hq, Nat.two_pow_add_eq_or_of_lt hy]

theorem toNat_ofNat_byte (n : Nat) (hn : 8 ≤ n) {a : Nat} (ha : a < 256) : (BitVec.ofNat n a).toNat = a := by
  rw [BitVec.toNat_ofNat, Nat.mod_eq_of_lt (ha.trans_le (Nat.pow_le_pow_right two_pos hn))]

/-- A low operand or-ed into a word with zeros there makes the command's word where the values add up to the command's. -/
theorem or_byte_eq_encode {p : Word} {a : Nat} {i : Instr} (hp : p.toNat % 2 ^ 8 = 0) (ha : a < 256)
    (hv : p.toNat + a = opcode i * 2 ^ 28 + operandArea i) : p ||| BitVec.ofNat 32 a = encode i := by
  have hva : (BitVec.ofNat 32 a).toNat = a := toNat_ofNat_byte 32 (by decide) ha
  rw [eq_comm, encode_eq_iff, toNat_or_of_low 8 hp (hva.trans_lt ha), hva, hv]

/-- DISPLAY's word before UPAT is or-ed in. -/
theorem toNat_display_or_tpat {b : Nat} (hb : b < 256) :
    (0x30000000#32 ||| BitVec.ofNat 32 b <<< 8).toNat = 0x30000000 + b * 2 ^ 8 := by
  have hshift : (BitVec.ofNat 32 b <<< 8).toNat = b * 2 ^ 8 := by
    rw [BitVec.toNat_shiftLeft, toNat_ofNat_byte 32 (by decide) hb, Nat.shiftLeft_eq, Nat.mod_eq_of_lt (by omega)]
  rw [toNat_or_of_low 16 rfl (hshift.trans_lt (by omega)), hshift]
  rfl

/-- Settles O5: each syntax's or-ed operands fill disjoint bits, so the word has the command's value. -/
theorem assemblerAgreesWithEncoder : Obligations.AssemblerAgreesWithEncoder := by
  intro a b ha hb
  have hupat := toNat_ofNat_byte 8 le_rfl ha
  have htpat := toNat_ofNat_byte 8 le_rfl hb
  have hhigh := toNat_display_or_tpat hb
  refine ⟨?_, ?_, ?_, fun hbit => ?_⟩
  · rw [assembleWord, if_pos ha, or_byte_eq_encode rfl ha]
    simp only [opcode, operandArea, hupat, BitVec.toNat_ofNat]
    omega
  · rw [assembleWord, if_pos ha, or_byte_eq_encode rfl ha]
    simp only [opcode, operandArea, hupat, BitVec.toNat_ofNat]
    omega
  · rw [assembleWord, if_pos ⟨ha, hb⟩, or_byte_eq_encode (by omega) ha]
    simp only [opcode, operandArea, hupat, htpat, hhigh]
    omega
  · rw [assembleWord, if_pos hbit, or_byte_eq_encode rfl ha]
    interval_cases a <;> rfl

/-- Settles O1: four words are encodings, and the two rejected words fail R74's checks on OP and on the reserved bits. -/
theorem specWordsDecode : Obligations.SpecWordsDecode :=
  ⟨decodeEncodeAgree (.sample 5), decodeEncodeAgree (.patfor 16), decodeEncodeAgree (.display 0x23 0x2D),
    decodeEncodeAgree (.setdark true), decode_of_illegalOp (by decide), decode_of_reservedBits (by decide)⟩

end Sys2Proof.Machine

namespace Sys2Proof.Machine

open Sys2Proof.Laws.EncodeFields (opcode operandArea)

/-! ## The word of a SAMPLE and its operand check (R76, R100, R113) -/

/-- SAMPLE's word is its OP with the channel or-ed in (R85). -/
theorem encode_sample_eq_or (ch : Byte) : encode (.sample ch) = 0x10000000#32 ||| ch.zeroExtend 32 := by
  have hch : (ch.zeroExtend 32).toNat = ch.toNat := BitVec.toNat_setWidth_of_le (by decide)
  have hlow : (ch.zeroExtend 32).toNat < 2 ^ 28 := by omega
  rw [encode_eq_iff, toNat_or_of_low 28 rfl hlow, hch]
  simp only [opcode, operandArea, BitVec.toNat_ofNat]
  omega

/-- Settles O13: the range check comes before any line event, and the fault path writes FAULTED, CAUSE and FINFO alone. -/
theorem sampleOutOfRange : Obligations.SampleOutOfRange := by
  intro s ch hch
  have hexec : exec (.sample ch) s = .next (raiseFault .operandRange (encode (.sample ch)) s) := if_pos hch
  rw [hexec, encode_sample_eq_or]
  rfl

/-! ## The levels a conversation leaves (R111) -/

/-- The last command bit sent is CH[0]: `0x18` has a zero there (R81). -/
theorem adcCommandByte_bit_three (ch : Byte) : (adcCommandByte ch).getLsbD 3 = ch.getLsbD 0 := by
  simp [adcCommandByte]

theorem adcCommandPhase_levels (s : State) (ch : Byte) :
    (adcCommandPhase ch s).levels = { s.levels with adcCs := false, adcClk := false, adcDin := ch.getLsbD 0 } := by
  rw [← adcCommandByte_bit_three]
  rfl

/-- The reads leave the levels of the command phase, and the last event deselects the ADC. -/
theorem adcConversation_levels (s : State) (ch : Byte) :
    (adcConversation ch s).levels = { s.levels with adcCs := true, adcClk := false, adcDin := ch.getLsbD 0 } := by
  have hread := adcReadBits_levels 10 0#10 (adcCommandPhase ch s) rfl
  rw [adcCommandPhase_levels] at hread
  exact congrArg (withLevel .adcCs true) hread

/-- Settles O12: these are the ADC lines of the levels a conversation leaves. -/
theorem sampleEndLevels : Obligations.SampleEndLevels := by
  intro s ch hch
  refine ⟨_, exec_sample_ok s ch hch, ?_⟩
  rw [adcConversation_levels]
  exact ⟨rfl, rfl, rfl⟩

/-- Settles O8: the conversation's four written elements one by one, and its frame for the rest. -/
theorem sampleNextState : Obligations.SampleNextState := by
  intro s ch hch
  have ho := adcConversation_only s ch
  rw [exec_sample_ok s ch hch]
  exact congrArg _ (State.ext (adcConversation_levels s ch) ho.dark (adcConversation_result s ch) ho.faulted ho.cause
    ho.finfo ho.srActive ho.srU ho.srT ho.srCur ho.srDue ho.fq ho.now (Appends.of_adcConversation ch s).trace
    (adcConversation_env s ch))

/-! ## R102's table -/

/-- Blocks of equal length and equal counts: the counts add up. -/
theorem countP_flatMap_of_const {α β : Type} {p : β → Bool} {f : α → List β} {k : Nat} (l : List α)
    (h : ∀ a, (f a).countP p = k) : (l.flatMap f).countP p = l.length * k := by
  simp [List.countP_flatMap, Function.comp_def, h]

/-- How often an event occurs in a SAMPLE, from how often it occurs in one command bit and in one result bit. -/
theorem countP_sampleEvents {p : LineEvent → Bool} {k m : Nat} (ch : Byte) (bits : List Level)
    (hcommand : ∀ b, (commandBitEvents b).countP p = k) (hresult : ∀ b, (resultBitEvents b).countP p = m) :
    (sampleEvents ch bits).countP p =
      [LineEvent.W .adcCs true, .W .adcClk false, .W .adcCs false].countP p + 5 * k
        + [LineEvent.W .adcClk true, .W .adcClk false].countP p + bits.length * m + [LineEvent.W .adcCs true].countP p := by
  simp only [sampleEvents, List.countP_append, countP_flatMap_of_const _ hresult,
    countP_flatMap_of_const _ fun i => hcommand ((adcCommandByte ch).getLsbD (7 - i)), List.length_range]

/-- Each row of the table is read off the list of the 51 events. -/
theorem followsSampleTable_sampleEvents (ch : Byte) {bits : List Level} (h : bits.length = 10) :
    FollowsSampleTable (adcCommandByte ch) bits (sampleEvents ch bits) := by
  match bits, h with
  | [_, _, _, _, _, _, _, _, _, _], _ =>
    constructor
    case bitOnDin | bitRise | bitFall | readRise | readFall | readBit => intro i hi; interval_cases i <;> rfl
    all_goals rfl

/-- Settles O9: a conversation appends `sampleEvents`, which has the table's rows and, block by block, its totals. -/
theorem sampleEventTable : Obligations.SampleEventTable := by
  intro s ch hch
  have hlen := doutDraws_length 10 s
  refine ⟨_, _, exec_sample_ok s ch hch, (Appends.of_adcConversation ch s).trace,
    followsSampleTable_sampleEvents ch hlen, ?_, ?_, ?_, ?_, ?_, ?_⟩
  · rw [← List.countP_true, countP_sampleEvents ch _ (fun _ => rfl) fun _ => rfl, hlen]
    rfl
  all_goals
    rw [countP_sampleEvents ch _ (fun _ => rfl) fun _ => rfl, hlen]
    rfl

/-! ## The value of the bits read (R82, R106, R110) -/

/-- Below 2^9 no bit is lost: the value doubles and the bit read is the new lowest. -/
theorem toNat_shiftIn {r : BitVec 10} (b : Level) (h : r.toNat < 2 ^ 9) :
    (shiftIn r b).toNat = r.toNat * 2 + b.toNat := by
  have hlow : ((BitVec.ofBool b).zeroExtend 10).toNat = b.toNat := by cases b <;> rfl
  have hhigh : (r <<< 1).toNat = r.toNat <<< 1 := by
    rw [BitVec.toNat_shiftLeft, Nat.shiftLeft_eq, Nat.mod_eq_of_lt (by omega)]
  rw [shiftIn, BitVec.toNat_or, hlow, hhigh, ← Nat.shiftLeft_add_eq_or_of_lt (by simpa using b.toNat_lt),
    Nat.shiftLeft_eq, pow_one]

/-- The weighted sum of the bits read from the `k`-th on: the `j`-th counts 2^(9-j) (R106). -/
def weightedSumFrom (k : Nat) (bits : List Level) : Nat :=
  ((bits.zipIdx k).map fun p => p.1.toNat * 2 ^ (9 - p.2)).sum

theorem weightedSumFrom_cons (k : Nat) (b : Level) (bits : List Level) :
    weightedSumFrom k (b :: bits) = b.toNat * 2 ^ (9 - k) + weightedSumFrom (k + 1) bits := rfl

/-- With `k` bits read into `r`, the bits still to come add their weighted sum. -/
theorem toNat_foldl_shiftIn (bits : List Level) : ∀ (k : Nat) (r : BitVec 10), k + bits.length = 10 → r.toNat < 2 ^ k →
    (bits.foldl shiftIn r).toNat = r.toNat * 2 ^ bits.length + weightedSumFrom k bits := by
  induction bits with
  | nil => intro k r _ _; simp [weightedSumFrom]
  | cons b bits ih =>
    intro k r hk hr
    rw [List.length_cons] at hk
    have hnine : r.toNat < 2 ^ 9 := hr.trans_le (Nat.pow_le_pow_right two_pos (by omega))
    have hshift := toNat_shiftIn b hnine
    have hb := b.toNat_lt
    rw [List.foldl_cons, ih (k + 1) _ (by omega) (by rw [hshift, pow_succ]; omega), hshift, weightedSumFrom_cons,
      show 9 - k = bits.length by omega, List.length_cons]
    ring

theorem toNat_valueOfBits {bits : List Level} (h : bits.length = 10) :
    (valueOfBits bits).toNat = weightedSumFrom 0 bits := by
  simpa [valueOfBits] using toNat_foldl_shiftIn bits 0 0#10 (by omega) (by simp)

/-- RESULT is VALID's weight plus the value: bit 31 is clear of the low ten (R107). -/
theorem toNat_validResult (v : BitVec 10) : (validResult v).toNat = 2 ^ 31 + v.toNat := by
  have hv : (v.zeroExtend 32).toNat = v.toNat := BitVec.toNat_setWidth_of_le (by decide)
  have hlow : (v.zeroExtend 32).toNat < 2 ^ 31 := by omega
  rw [validResult, toNat_or_of_low 31 rfl hlow, hv]
  rfl

theorem validResult_eq_ofNat (v : BitVec 10) : validResult v = BitVec.ofNat 32 (2 ^ 31 + v.toNat) := by
  rw [← toNat_validResult, BitVec.ofNat_toNat, BitVec.setWidth_eq]

/-- Settles O10: RESULT is VALID plus the value shifted in, which is the weighted sum and fits in 10 bits. -/
theorem sampleResultIsWeightedSum : Obligations.SampleResultIsWeightedSum := by
  intro s ch hch
  have hvalue := toNat_valueOfBits (doutDraws_length 10 s)
  refine ⟨_, exec_sample_ok s ch hch, ?_, ?_⟩
  · rw [adcConversation_result, validResult_eq_ofNat, hvalue]
    rfl
  · exact hvalue.symm.trans_lt (valueOfBits (doutDraws 10 s)).isLt

/-- Bit `m` shifted in below the bits above it. -/
theorem shiftIn_ushiftRight (v : BitVec 10) (m : Nat) : shiftIn (v >>> (m + 1)) (v.getLsbD m) = v >>> m := by
  ext i hi
  cases i with
  | zero => simp [shiftIn]
  | succ i => simp [shiftIn, Nat.add_assoc, Nat.add_comm 1 i]

/-- The highest `n` bits of `v` shifted in, most significant first, are `v`'s upper part. -/
theorem foldl_shiftIn_highBits (v : BitVec 10) (n : Nat) (h : n ≤ 10) :
    ((List.range n).map fun j => v.getLsbD (9 - j)).foldl shiftIn 0#10 = v >>> (10 - n) := by
  induction n with
  | zero => exact (BitVec.ushiftRight_eq_zero le_rfl).symm
  | succ n ih =>
    rw [List.range_succ, List.map_append, List.foldl_append, ih (by omega), show 10 - n = 9 - n + 1 by omega]
    exact (shiftIn_ushiftRight v (9 - n)).trans (by congr 1; omega)

/-- RESULT[9:0] is the value (R107). -/
theorem validResult_low (v : BitVec 10) : (validResult v).extractLsb' 0 10 = v := by
  refine BitVec.eq_of_toNat_eq ?_
  rw [BitVec.extractLsb'_toNat, toNat_validResult, Nat.shiftRight_zero]
  omega

/-- Settles O11: the bits of `v` shifted in from the top are `v`, and RESULT's low 10 bits are the value shifted in. -/
theorem sampleRoundTrip : Obligations.SampleRoundTrip := by
  intro s ch v hch hbits
  refine ⟨_, exec_sample_ok s ch hch, ?_⟩
  rw [adcConversation_result, validResult_low, hbits, valueOfBits, foldl_shiftIn_highBits v 10 le_rfl]
  exact BitVec.ushiftRight_zero v

end Sys2Proof.Machine

namespace Sys2Proof.Machine

open Sys2Proof.Laws.EncodeFields (opcode operandArea)

/-! ## PATFOR (R120): its index check, its word and its result -/

theorem patternIndex_of_lt {n : Byte} (h : n.toNat < 17) : patternIndex n = some ⟨n.toNat, h⟩ := dif_pos h

theorem patternIndex_of_gt {n : Byte} (h : 16 < n.toNat) : patternIndex n = none := dif_neg (by omega)

/-- Widening a pattern to the 10-bit value first loses nothing (R27, R123). -/
theorem validResult_pattern (p : Byte) : validResult (p.zeroExtend 10) = 0x80000000#32 ||| p.zeroExtend 32 :=
  congrArg _ (BitVec.setWidth_setWidth (by omega))

/-- PATFOR's word is its OP with the index or-ed in (R85). -/
theorem encode_patfor_eq_or (n : Byte) : encode (.patfor n) = 0x20000000#32 ||| n.zeroExtend 32 := by
  have hwiden : n.zeroExtend 32 = BitVec.ofNat 32 n.toNat := (BitVec.ofNat_toNat 32 n).symm
  rw [hwiden, or_byte_eq_encode (i := .patfor n) rfl n.isLt]
  simp only [opcode, operandArea, BitVec.toNat_ofNat]
  omega

/-- Settles O15: a legal index finds its pattern, and RESULT alone is written. -/
theorem patforNextState : Obligations.PatforNextState := by
  intro s n h
  simp only [exec, execPatfor, patternIndex_of_lt h, validResult_pattern]
  rfl

/-- Settles O16: the next state of O15 at the three indices whose pattern the source fixes. -/
theorem patforFixedEntries : Obligations.PatforFixedEntries := fun s =>
  ⟨(patforNextState s 4#8 (by decide) :), (patforNextState s 7#8 (by decide) :), (patforNextState s 16#8 (by decide) :)⟩

/-- Settles O17: an index above 16 finds no pattern, and the fault path writes FAULTED, CAUSE and FINFO alone. -/
theorem patforOutOfRange : Obligations.PatforOutOfRange := by
  intro s n h
  simp only [exec, execPatfor, patternIndex_of_gt h, encode_patfor_eq_or]
  rfl

end Sys2Proof.Machine

namespace Sys2Proof.Machine

open Sys2Proof.Laws.EncodeFields (opcode operandArea)

/-! ## The bits of a frame, with the Dark override in force (R84, R133, R134, R137) -/

/-- Bit k of a frame word is U[k] for k < 8, else T[k−8] (R84). -/
theorem frameWord_getLsbD (u t : Byte) (k : Nat) :
    (frameWord u t).getLsbD k = if k < 8 then u.getLsbD k else t.getLsbD (k - 8) :=
  BitVec.getLsbD_append

/-- The override or-s DARK into bit 4 and leaves every other bit (R133). -/
theorem overrideBit4_getLsbD (dark : Level) (u : Byte) (k : Nat) :
    (overrideBit4 dark u).getLsbD k = (u.getLsbD k || (decide (k = 4) && dark)) := by
  have hbit : (0x10#8).getLsbD k = decide (k = 4) := by
    rw [show 0x10#8 = BitVec.twoPow 8 4 from rfl, BitVec.getLsbD_twoPow]
    simp [eq_comm]
  cases dark <;> simp [overrideBit4, hbit]

/-- An accepted units pattern is the operand, with DARK or-ed into bit 4 in `ACCEPT` mode (R131, R134). -/
theorem acceptUnits_getLsbD (p : DarkSamplePoint) (dark : Level) (u : Byte) (k : Nat) :
    (acceptUnits p dark u).getLsbD k = (u.getLsbD k || (decide (k = 4 ∧ p = .accept) && dark)) := by
  cases p with
  | accept => rw [acceptUnits, overrideBit4_getLsbD]; simp
  | step => simp [acceptUnits]

/-- What SR_STEP sends at place k: the frame word's bit, or-ed in `STEP` mode at k = 4 with DARK (R137). -/
theorem sentBit_eq (p : DarkSamplePoint) (dark : Level) (u t : Byte) (k : Nat) :
    sentBit p dark u t k = ((frameWord u t).getLsbD k || (decide (k = 4 ∧ p = .step) && dark)) := by
  rw [frameWord_getLsbD]
  cases p with
  | accept => simp [sentBit]
  | step => by_cases hk : k = 4 <;> simp [sentBit, hk]

/-- In either mode the override reaches the wire, where DARK stays as it was at the acceptance (R133, R134). -/
theorem sentBit_acceptUnits (p : DarkSamplePoint) (dark : Level) (u t : Byte) (k : Nat) :
    sentBit p dark (acceptUnits p dark u) t k = ((frameWord u t).getLsbD k || (decide (k = 4) && dark)) := by
  rw [sentBit_eq, frameWord_getLsbD, frameWord_getLsbD, acceptUnits_getLsbD]
  by_cases hk : k = 4
  · cases p <;> simp [hk]
  · simp [hk]

/-! ## DISPLAY (R130 to R136) -/

/-- DISPLAY's word is its OP with the patterns or-ed in (R85). -/
theorem encode_display_eq_or (u t : Byte) :
    encode (.display u t) = 0x30000000#32 ||| (t.zeroExtend 32 <<< 8) ||| u.zeroExtend 32 := by
  have hu : u.zeroExtend 32 = BitVec.ofNat 32 u.toNat := (BitVec.ofNat_toNat 32 u).symm
  have ht : t.zeroExtend 32 = BitVec.ofNat 32 t.toNat := (BitVec.ofNat_toNat 32 t).symm
  have hhigh := toNat_display_or_tpat t.isLt
  rw [hu, ht, or_byte_eq_encode (i := .display u t) (by omega) u.isLt]
  simp only [opcode, operandArea, hhigh]
  omega

/-- Where the queue is not full the frame is accepted (R131). -/
theorem exec_display_accept (s : State) (u t : Byte) (h : ¬ queueFull s) :
    exec (.display u t) s = .next (acceptFrame (acceptUnits Config.darkSamplePoint s.dark u) t s) :=
  if_neg h

theorem acceptFrame_idle (s : State) (u t : Byte) (h : s.srActive = false) :
    acceptFrame u t s = startFrame u t s := by
  simp [acceptFrame, h]

theorem acceptFrame_busy (s : State) (u t : Byte) (h : s.srActive = true) :
    acceptFrame u t s = pushFrame u t s := by
  simp [acceptFrame, h]

/-- An idle engine starts the accepted frame at once (R131, R132). -/
theorem exec_display_idle (s : State) (u t : Byte) (h : s.srActive = false) :
    exec (.display u t) s = .next (startFrame (acceptUnits Config.darkSamplePoint s.dark u) t s) := by
  rw [exec_display_accept s u t (by simp [h]), acceptFrame_idle s _ t h]

/-- Settles O18: on an idle engine the frame starts, and StartFrame writes the shift engine alone. -/
theorem displayIdleStartsFrame : Obligations.DisplayIdleStartsFrame := exec_display_idle

/-- Settles O19: with room in the queue a busy engine's DISPLAY pushes its frame. -/
theorem displayBusyQueues : Obligations.DisplayBusyQueues := by
  intro s u t ha hq
  rw [exec_display_accept s u t fun hfull => hq.ne hfull.2, acceptFrame_busy s _ t ha]
  rfl

/-- Settles O20: the check of the queue comes first, and the fault path writes FAULTED, CAUSE and FINFO alone. -/
theorem displayOverrunFaults : Obligations.DisplayOverrunFaults := by
  intro s u t ha hq
  have hexec : exec (.display u t) s = .next (raiseFault .frameOverrun (encode (.display u t)) s) := if_pos ⟨ha, hq⟩
  rw [hexec, encode_display_eq_or]
  rfl

/-- Settles O21: the started frame has TPAT as given, and UPAT with the override in `ACCEPT` mode alone. -/
theorem darkOverrideOnlyBitFour : Obligations.DarkOverrideOnlyBitFour := by
  intro s u t ha
  refine ⟨_, exec_display_idle s u t ha, rfl, fun k _ => ?_⟩
  rw [startFrame_srU, acceptUnits_getLsbD]
  split
  · next h => simp [h]
  · next h => simp [h]

/-! ## SR_STEP's next states (R137, R138) -/

theorem runAction_seq_enabled (s : State) (h : srEnabled s = true) : runAction .seq s = .next (srStep s) :=
  congrArg Host.Outcome.next (if_pos h)

/-- The bit at the cursor, by R137's expression. -/
theorem currentBit_eq (s : State) :
    currentBit s =
      ((if s.srCur.toNat < 8 then s.srU.getLsbD s.srCur.toNat else s.srT.getLsbD (s.srCur.toNat - 8))
        || (decide (s.srCur.toNat = 4 ∧ Config.darkSamplePoint = .step) && s.dark)) := by
  rw [currentBit, sentBit_eq, frameWord_getLsbD]

theorem currentBit_last (s : State) (h : s.srCur = 15#4) : currentBit s = s.srT.getLsbD 7 := by
  simp [currentBit_eq, h]

theorem shiftOut_eq (b : Level) (s : State) :
    shiftOut b s =
      { s with levels := { s.levels with srData := b, srShclk := false }, trace := s.trace ++ frameBitEvents b } := by
  simp [shiftOut, pulse, lineWrite, withLevel, frameBitEvents]

/-- The step of bit 15 before the next frame is looked for: the bit, then the latch pulse. -/
theorem latch_shiftOut_eq (b : Level) (s : State) :
    pulse .srLatch (shiftOut b s) =
      { s with
        levels := { s.levels with srData := b, srShclk := false, srLatch := false }
        trace := s.trace ++ (frameBitEvents b ++ latchEvents) } := by
  simp [shiftOut_eq, pulse, lineWrite, withLevel, latchEvents]

/-- Settles O23: below 15 the bit goes out and the cursor advances. -/
theorem srStepMidFrame : Obligations.SrStepMidFrame := by
  intro s he hk
  have hcur : s.srCur + 1#4 = BitVec.ofNat 4 (s.srCur.toNat + 1) := by
    rw [BitVec.ofNat_add, BitVec.ofNat_toNat, BitVec.setWidth_eq]
  refine ⟨_, currentBit_eq s, ?_⟩
  rw [runAction_seq_enabled s he, srStep_mid s hk, shiftOut_eq, ← hcur]
  rfl

theorem runAction_seq_last (s : State) (he : srEnabled s = true) (hk : s.srCur = 15#4) :
    runAction .seq s = .next (nextFrame (pulse .srLatch (shiftOut (s.srT.getLsbD 7) s))) := by
  rw [runAction_seq_enabled s he, srStep_last s (by simp [hk]), currentBit_last s hk]

/-- Settles O24: after the latch pulse nothing is queued, so the engine is idle. -/
theorem srStepLatchesAndIdles : Obligations.SrStepLatchesAndIdles := by
  intro s he hk hq
  rw [runAction_seq_last s he hk, nextFrame_nil (pulse .srLatch (shiftOut _ s)) hq, latch_shiftOut_eq]
  rfl

/-- Settles O25: after the latch pulse the oldest queued frame starts, which leaves SR_ACTIVE at 1. -/
theorem srStepLatchesAndStartsNext : Obligations.SrStepLatchesAndStartsNext := by
  intro s f rest he hk hq
  obtain ⟨ha, -, -⟩ := (srEnabled_iff s).1 he
  rw [runAction_seq_last s he hk, nextFrame_cons (pulse .srLatch (shiftOut _ s)) f rest hq, latch_shiftOut_eq, ha]
  rfl

/-- Settles O26: one frame bit's events, and after bit 15 the latch pulse's. -/
theorem srStepEventBlock : Obligations.SrStepEventBlock := by
  intro s he
  refine ⟨_, _, runAction_seq_enabled s he, currentBit_eq s, ?_⟩
  rw [srStep_trace, List.append_assoc]
  split <;> rfl

end Sys2Proof.Machine

namespace Sys2Proof.Machine

/-! ## A whole frame (R139, R142, R143) -/

/-- The events of frame bit `k` for the shift engine and the DARK of `s` (R137, R138). -/
def sentBitEvents (s : State) (k : Nat) : List LineEvent :=
  frameBitEvents (sentBit Config.darkSamplePoint s.dark s.srU s.srT k)

/-- The same events by the frame word, with the override that is in force at send time (R84, R134). -/
theorem sentBitEvents_eq (s : State) : sentBitEvents s = fun k =>
    frameBitEvents ((frameWord s.srU s.srT).getLsbD k
      || (decide (k = 4 ∧ Config.darkSamplePoint = .step) && s.dark)) :=
  funext fun k => congrArg frameBitEvents (sentBit_eq _ s.dark s.srU s.srT k)

/-- The events of a frame started by a DISPLAY: the operands' bits, bit 4 or-ed with DARK in either mode (R133). -/
theorem sentBitEvents_display (s : State) (u v : Byte) :
    sentBitEvents (startFrame (acceptUnits Config.darkSamplePoint s.dark u) v s) = fun k =>
      frameBitEvents ((frameWord u v).getLsbD k || (decide (k = 4) && s.dark)) :=
  funext fun k => congrArg frameBitEvents (sentBit_acceptUnits _ s.dark u v k)

/-- From `s`, whose frame has sent no bit yet, the frame's first `n` bits have been sent, and the other steps taken moved
nothing of the display driver or DARK. -/
structure SentFirst (n : Nat) (s t : State) : Prop where
  srActive : t.srActive = s.srActive
  srU : t.srU = s.srU
  srT : t.srT = s.srT
  srCur : t.srCur.toNat = n
  fq : t.fq = s.fq
  dark : t.dark = s.dark
  faulted : t.faulted = s.faulted
  trace : t.trace = s.trace ++ (List.range n).flatMap (sentBitEvents s)

theorem SentFirst.zero (s : State) (h : s.srCur = 0#4) : SentFirst 0 s s :=
  ⟨rfl, rfl, rfl, by simp [h], rfl, rfl, rfl, by simp⟩

/-- The passing of time sends nothing. -/
theorem SentFirst.withNow {n : Nat} {s t : State} (h : SentFirst n s t) (m : Nat) : SentFirst n s { t with now := m } :=
  { h with }

/-- The next bit is bit `n` of the frame. -/
theorem SentFirst.currentBit_events {n : Nat} {s t : State} (h : SentFirst n s t) :
    frameBitEvents (currentBit t) = sentBitEvents s n := by
  rw [currentBit, h.dark, h.srU, h.srT, h.srCur, sentBitEvents]

/-- What is on the wire after the next SR_STEP: one bit more, and after bit 15 the latch pulse. -/
theorem SentFirst.srStep_trace {n : Nat} {s t : State} (h : SentFirst n s t) :
    (srStep t).trace = s.trace ++ (List.range (n + 1)).flatMap (sentBitEvents s)
      ++ (if n < 15 then [] else latchEvents) := by
  rw [Machine.srStep_trace, h.currentBit_events, h.trace, h.srCur, List.range_succ]
  simp

/-- An SR_STEP below bit 15 moves the cursor on by one. -/
theorem srStep_mid_srCur {s : State} (h : s.srCur.toNat < 15) : (srStep s).srCur.toNat = s.srCur.toNat + 1 := by
  rw [srStep_mid s h, advanceCursor_srCur, shiftOut_srCur, BitVec.toNat_add, BitVec.toNat_ofNat]
  omega

/-- An SR_STEP below bit 15 sends one bit more of the same frame. -/
theorem SentFirst.srStep {n : Nat} {s t : State} (h : SentFirst n s t) (hn : n < 15) :
    SentFirst (n + 1) s (srStep t) := by
  have hk : t.srCur.toNat < 15 := by rwa [h.srCur]
  have hcur := srStep_mid_srCur hk
  have htrace := h.srStep_trace
  rw [h.srCur] at hcur
  rw [if_pos hn, List.append_nil] at htrace
  rw [srStep_mid t hk] at hcur htrace ⊢
  exact { h with srCur := hcur, trace := htrace }

/-- One SR_STEP after another, up to bit 15. -/
theorem SentFirst.of_iterate (s : State) (h : s.srCur = 0#4) : ∀ n, n ≤ 15 → SentFirst n s (Machine.srStep^[n] s)
  | 0, _ => .zero s h
  | n + 1, hn => by
    rw [Function.iterate_succ_apply']
    exact (of_iterate s h n (by omega)).srStep (by omega)

/-- Settles O28: fifteen bits leave the cursor at 15, and the sixteenth step adds the latch pulse. -/
theorem frameIsFiftyWrites : Obligations.FrameIsFiftyWrites := by
  intro s h
  rw [Function.iterate_succ_apply' srStep 15, (SentFirst.of_iterate s h 15 le_rfl).srStep_trace, sentBitEvents_eq]
  rfl

/-! ## A frame sent as early as allowed (R143) -/

theorem runActions_append (l m : List Action) : ∀ {s t : State}, runActions l s = .next t →
    runActions (l ++ m) s = runActions m t := by
  induction l with
  | nil => intro s t h; cases h; rfl
  | cons a l ih =>
    intro s t h
    simp only [List.cons_append, runActions] at h ⊢
    cases hs : runAction a s with
    | next x => rw [hs] at h; exact ih h
    | fault r => rw [hs] at h; cases h
    | refused r => rw [hs] at h; cases h

/-- The least time between two steps of the engine, and the step: `BIT_DELAY` steps of TIME, then one of SEQ. -/
def bitPeriod : List Action := List.replicate Config.bitDelay Action.time ++ [Action.seq]

/-- A step that is due in `d` fires after `d` steps of TIME. -/
theorem runActions_until_due (d : Nat) : ∀ s : State, s.srActive = true → s.faulted = false → s.srDue = s.now + d →
    runActions (List.replicate d Action.time ++ [Action.seq]) s = .next (srStep { s with now := s.now + d }) := by
  induction d with
  | zero =>
    intro s ha hf hd
    simp [runActions, runAction_seq_enabled s ((srEnabled_iff s).2 ⟨ha, hf, hd.le⟩)]
  | succ d ih =>
    intro s ha hf hd
    have hrest := ih (timeStep s) ha hf (by rw [timeStep_srDue, timeStep_now]; omega)
    rw [timeStep_now, Nat.add_assoc, Nat.add_comm 1] at hrest
    exact hrest

/-- One bit period more: the step due `BIT_DELAY` from the state reached so far fires. -/
theorem runActions_bitPeriods_succ {n : Nat} {s t : State}
    (hrun : runActions (List.replicate n bitPeriod).flatten s = .next t)
    (ha : t.srActive = true) (hf : t.faulted = false) (hd : t.srDue = t.now + Config.bitDelay) :
    runActions (List.replicate (n + 1) bitPeriod).flatten s = .next (srStep { t with now := t.now + Config.bitDelay }) := by
  rw [List.replicate_succ', List.flatten_append, runActions_append _ _ hrun, List.flatten_singleton]
  exact runActions_until_due Config.bitDelay t ha hf hd

/-- The first `n` bits, each sent as early as allowed, take `n` times `BIT_DELAY`, and leave the next one armed. -/
theorem SentFirst.of_bitPeriods (s : State) (ha : s.srActive = true) (hf : s.faulted = false) (hk : s.srCur = 0#4)
    (hd : s.srDue = s.now + Config.bitDelay) (n : Nat) (hn : n ≤ 15) :
    ∃ t, runActions (List.replicate n bitPeriod).flatten s = .next t ∧ SentFirst n s t
      ∧ t.now = s.now + n * Config.bitDelay ∧ t.srDue = t.now + Config.bitDelay := by
  induction n with
  | zero => exact ⟨s, rfl, .zero s hk, by omega, hd⟩
  | succ n ih =>
    obtain ⟨t, hrun, hsent, hnow, hdue⟩ := ih (by omega)
    have hlate := hsent.withNow (t.now + Config.bitDelay)
    have hlt : n < 15 := by omega
    refine ⟨_, runActions_bitPeriods_succ hrun (hsent.srActive.trans ha) (hsent.faulted.trans hf) hdue,
      hlate.srStep hlt, ?_, ?_⟩
    · rw [(srStep_only _).now]
      dsimp only
      rw [hnow, Nat.succ_mul, Nat.add_assoc]
    · rw [srStep_mid _ (by rwa [hlate.srCur])]
      rfl

/-- The last bit of a frame with nothing queued leaves the engine idle (R137). -/
theorem SentFirst.srStep_idles {s t : State} (h : SentFirst 15 s t) (hq : s.fq = []) :
    (Machine.srStep t).srActive = false ∧ (Machine.srStep t).srCur = 0#4 := by
  rw [srStep_last t (by rw [h.srCur]; decide), nextFrame_nil _ (by simpa using h.fq.trans hq)]
  exact ⟨rfl, rfl⟩

/-- Settles O29: fifteen bit periods bring the started frame to bit 15, and the sixteenth latches it with nothing queued. -/
theorem displayedFrameReachesItsLatch : Obligations.DisplayedFrameReachesItsLatch := by
  intro s u v ha hf hq
  obtain ⟨t, hrun, hsent, hnow, hdue⟩ :=
    SentFirst.of_bitPeriods (startFrame (acceptUnits Config.darkSamplePoint s.dark u) v s) rfl hf rfl rfl 15 le_rfl
  have hlate := hsent.withNow (t.now + Config.bitDelay)
  obtain ⟨hidle, hcur⟩ := hlate.srStep_idles hq
  refine ⟨_, _, exec_display_idle s u v ha,
    runActions_bitPeriods_succ hrun hsent.srActive (hsent.faulted.trans hf) hdue, ?_, hidle, hcur, ?_⟩
  · rw [(srStep_only _).now]
    dsimp only
    rw [hnow, startFrame_now]
    omega
  · rw [hlate.srStep_trace, sentBitEvents_display]
    rfl

end Sys2Proof.Machine

namespace Sys2Proof.Machine

/-! ## What the display lines show (R34, R139 to R141) -/

/-- Settles O30: after a reset nothing is latched, nothing is pending and the trace is empty. -/
theorem wireShowsNothingAtReset : Obligations.WireShowsNothingAtReset :=
  ⟨[], [], 0, rfl, .nil, rfl, nofun⟩

/-- `t` shows on the display lines what `s` shows, and has the same frames to send. -/
structure SameWire (s t : State) : Prop where
  srActive : t.srActive = s.srActive
  srU : t.srU = s.srU
  srT : t.srT = s.srT
  srCur : t.srCur = s.srCur
  fq : t.fq = s.fq
  events : displayEvents t.trace = displayEvents s.trace

theorem SameWire.pendingFrames {s t : State} (h : SameWire s t) : pendingFrames t = pendingFrames s := by
  rw [Machine.pendingFrames, Machine.pendingFrames, h.srActive, h.srU, h.srT, h.fq]

theorem SameWire.wireShows {accepted : List Frame} {s t : State} (h : SameWire s t) (hw : WireShows accepted s) :
    WireShows accepted t := by
  unfold WireShows at hw ⊢
  rwa [h.pendingFrames, h.srActive, h.srU, h.srT, h.srCur, h.events]

theorem SameWire.of_consumeAction (s : State) : SameWire s (consumeAction s) := by
  constructor <;> simp

/-- A SAMPLE's events are all on the ADC lines (R24). -/
theorem SameWire.of_adcConversation (s : State) (ch : Byte) : SameWire s (adcConversation ch s) := by
  have honly := adcConversation_only s ch
  refine ⟨honly.srActive, honly.srU, honly.srT, honly.srCur, honly.fq, ?_⟩
  rw [(Appends.of_adcConversation ch s).trace, displayEvents_append, displayEvents_eq_nil (sampleEvents_onAdc _ _),
    List.append_nil]

/-! ### The frame a move accepts (R131) -/

theorem acceptedBy_other_offset (s : State) (off : Nat) (w : Word) (h : off ≠ 0) :
    acceptedBy (.host (.write off 32 w)) s = [] := by
  unfold acceptedBy
  split
  · next heq => cases heq; exact absurd rfl h
  · rfl

/-- Of all the words that decode, only a DISPLAY's can hand over a frame. -/
theorem acceptedBy_no_display (s : State) (w : Word) (h : ∀ u v, decode w ≠ .ok (.display u v)) :
    acceptedBy (.host (.write 0x00 32 w)) s = [] := by
  simp only [acceptedBy]

theorem acceptedBy_display (s : State) (w : Word) (u v : Byte) (hd : decode w = .ok (.display u v)) :
    acceptedBy (.host (.write 0x00 32 w)) s =
      if s.faulted = true ∨ queueFull s then [] else [{ u := acceptUnits Config.darkSamplePoint s.dark u, t := v }] := by
  simp only [acceptedBy, hd]

theorem acceptedBy_faulted (s : State) (w : Word) (hf : s.faulted = true) :
    acceptedBy (.host (.write 0x00 32 w)) s = [] := by
  by_cases h : ∃ u v, decode w = .ok (.display u v)
  · obtain ⟨u, v, hd⟩ := h
    rw [acceptedBy_display s w u v hd, if_pos (.inl hf)]
  · exact acceptedBy_no_display s w fun u v hd => h ⟨u, v, hd⟩

/-- The inversion lemma of the wire: a move fires an SR_STEP, accepts a frame, or does neither and shows nothing new. -/
theorem Moves.wire {a : Action} {s t : State} (h : Moves a s t) :
    (acceptedBy a s = [] ∧ SameWire s t)
      ∨ (∃ f : Frame, acceptedBy a s = [f] ∧ t = acceptFrame f.u f.t s)
      ∨ (acceptedBy a s = [] ∧ s.srActive = true ∧ t = srStep s) := by
  cases h with
  | fire he => exact .inr (.inr ⟨rfl, ((srEnabled_iff s).1 he).1, rfl⟩)
  | accept w u v hf hd hq =>
    refine .inr (.inl ⟨{ u := acceptUnits Config.darkSamplePoint s.dark u, t := v }, ?_, rfl⟩)
    rw [acceptedBy_display s w u v hd, if_neg (by simp [hf, hq])]
  | read | pass | time => exact .inl ⟨rfl, rfl, rfl, rfl, rfl, rfl, rfl⟩
  | noEffect off w hno =>
    refine .inl ⟨?_, rfl, rfl, rfl, rfl, rfl, rfl⟩
    by_cases ho : off = 0
    · subst ho
      exact acceptedBy_faulted s w (hno.resolve_left (by simp))
    · exact acceptedBy_other_offset s off w ho
  | overrun w u v hf hd hq =>
    refine .inl ⟨?_, rfl, rfl, rfl, rfl, rfl, rfl⟩
    rw [acceptedBy_display s w u v hd, if_pos (.inr hq)]
  | range w i hf hd hi =>
    refine .inl ⟨acceptedBy_no_display s w fun u v => ?_, rfl, rfl, rfl, rfl, rfl, rfl⟩
    rcases hi with ⟨ch, rfl, -⟩ | ⟨n, rfl, -⟩ <;> simp [hd]
  | sample w ch hf hd =>
    exact .inl ⟨acceptedBy_no_display s w (by simp [hd]), .of_adcConversation s ch⟩
  | reject w e hf hd | patfor w n k hf hd | setdark w d hf hd =>
    exact .inl ⟨acceptedBy_no_display s w (by simp [hd]), rfl, rfl, rfl, rfl, rfl, rfl⟩

/-! ### An accepted frame is the last to be sent (R135) -/

/-- The invariant gives that an idle engine has nothing queued. -/
theorem pendingFrames_acceptFrame {s : State} (hi : s.Inv) (f : Frame) :
    pendingFrames (acceptFrame f.u f.t s) = pendingFrames s ++ [f] := by
  cases ha : s.srActive with
  | true =>
    rw [acceptFrame_busy s _ _ ha]
    simp [pendingFrames, ha]
  | false =>
    obtain ⟨-, hq⟩ := hi.idle ha
    rw [acceptFrame_idle s _ _ ha, pendingFrames_idle s ha]
    simp [pendingFrames, hq]

theorem acceptFrame_srCur {s : State} (hi : s.Inv) (u v : Byte) : (acceptFrame u v s).srCur = s.srCur := by
  cases ha : s.srActive with
  | true => rw [acceptFrame_busy s _ _ ha, pushFrame_srCur]
  | false => rw [acceptFrame_idle s _ _ ha, startFrame_srCur, (hi.idle ha).1]

theorem WireShows.acceptFrame {accepted : List Frame} {s : State} (hi : s.Inv) (hw : WireShows accepted s) (f : Frame) :
    WireShows (accepted ++ [f]) (acceptFrame f.u f.t s) := by
  obtain ⟨latched, sent, current, haccepted, hsent, htrace, hcurrent⟩ := hw
  refine ⟨latched, sent, current, ?_, hsent, ?_, ?_⟩
  · rw [pendingFrames_acceptFrame hi, haccepted, List.append_assoc]
  · rw [acceptFrame_trace, acceptFrame_srCur hi, htrace]
  · rw [acceptFrame_srCur hi]
    intro _ k hk
    cases ha : s.srActive with
    | true => rw [acceptFrame_busy s _ _ ha]; exact hcurrent ha k hk
    | false => simp [(hi.idle ha).1] at hk

/-! ### An SR_STEP sends the next bit of the active frame (R137, R138) -/

/-- The word `f` with bit `k` set to `b`. -/
def withBit (f : BitVec 16) (k : Nat) (b : Level) : BitVec 16 :=
  BitVec.ofFnLE fun i => if i.val = k then b else f.getLsbD i

theorem withBit_getLsbD (f : BitVec 16) (k : Nat) (b : Level) {j : Nat} (hj : j < 16) :
    (withBit f k b).getLsbD j = if j = k then b else f.getLsbD j := by
  rw [withBit, BitVec.getLsbD_ofFnLE]
  simp [hj]

/-- A bit sent after a frame's start makes the start of the word with that bit. -/
theorem frameStart_withBit (f : BitVec 16) {k : Nat} (b : Level) (hk : k < 16) :
    frameStart (withBit f k b) (k + 1) = frameStart f k ++ frameBitEvents b := by
  have hbelow : frameStart (withBit f k b) k = frameStart f k :=
    List.flatMap_congr fun j hj => by
      have hlt : j < k := List.mem_range.1 hj
      rw [withBit_getLsbD f k b (by omega), if_neg hlt.ne]
  rw [frameStart, List.range_succ, List.flatMap_append, ← frameStart, hbelow]
  simp [withBit_getLsbD f k b hk]

theorem bitAgrees_congr {p : DarkSamplePoint} {f : Frame} {x y : BitVec 16} {k : Nat} (h : x.getLsbD k = y.getLsbD k)
    (hx : bitAgrees p f x k) : bitAgrees p f y k := by
  unfold bitAgrees at hx ⊢
  split
  · next hp =>
    rw [if_pos hp] at hx
    obtain ⟨-, rfl⟩ := hp
    rwa [h] at hx
  · next hp => rwa [if_neg hp, h] at hx

/-- The bit SR_STEP sends is the frame's, or in `STEP` mode bit 4 forced to 1 (R137). -/
theorem bitAgrees_of_sentBit {p : DarkSamplePoint} {dark : Level} {u t : Byte} {x : BitVec 16} {k : Nat}
    (h : x.getLsbD k = sentBit p dark u t k) : bitAgrees p { u := u, t := t } x k := by
  rw [sentBit_eq] at h
  unfold bitAgrees
  split
  · next hp =>
    obtain ⟨rfl, rfl⟩ := hp
    intro hu
    rw [h, frameWord_getLsbD]
    simp [hu]
  · next hp =>
    have hp' : ¬ (k = 4 ∧ p = .step) := fun hq => hp hq.symm
    simpa [hp'] using h

/-- The bits sent so far and the bit at the cursor all agree with the active frame. -/
theorem bitAgrees_withBit_currentBit {s : State} {current : BitVec 16}
    (hcurrent : ∀ k, k < s.srCur.toNat →
      bitAgrees Config.darkSamplePoint { u := s.srU, t := s.srT } current k) :
    ∀ k, k < s.srCur.toNat + 1 → bitAgrees Config.darkSamplePoint { u := s.srU, t := s.srT }
      (withBit current s.srCur.toNat (currentBit s)) k := by
  intro k hk
  have hbit := withBit_getLsbD current s.srCur.toNat (currentBit s) (show k < 16 by omega)
  by_cases heq : k = s.srCur.toNat
  · rw [if_pos heq] at hbit
    refine bitAgrees_of_sentBit (dark := s.dark) ?_
    rw [hbit, heq, currentBit]
  · rw [if_neg heq] at hbit
    exact bitAgrees_congr hbit.symm (hcurrent k (by omega))

/-- The events of an SR_STEP are all on the display lines. -/
theorem displayEvents_srStep (s : State) :
    displayEvents (srStep s).trace = displayEvents s.trace
      ++ (frameBitEvents (currentBit s) ++ if s.srCur.toNat < 15 then [] else latchEvents) := by
  have hown := srStepEvents_onDisplay (currentBit s) s.srCur.toNat
  rw [(Appends.of_srStep s).trace, displayEvents_append]
  congr 1
  exact List.filter_eq_self.2 (List.all_eq_true.1 hown)

/-- After the last bit the active frame is no longer pending, and the next one has sent nothing. -/
theorem srStep_last_frames {s : State} (ha : s.srActive = true) (hk : ¬ s.srCur.toNat < 15) :
    pendingFrames s = { u := s.srU, t := s.srT } :: pendingFrames (srStep s) ∧ (srStep s).srCur = 0#4 := by
  rw [srStep_last s hk]
  cases hq : s.fq with
  | nil =>
    rw [nextFrame_nil (pulse .srLatch (shiftOut _ s)) hq]
    simp [pendingFrames, ha, hq]
  | cons f rest =>
    rw [nextFrame_cons (pulse .srLatch (shiftOut _ s)) f rest hq]
    simp [pendingFrames, ha, hq]

/-- With the bit at the cursor sent, the current word has one bit more. -/
theorem displayEvents_srStep_of_frameStart {s : State} {block : List LineEvent} {current : BitVec 16}
    (h : displayEvents s.trace = block ++ frameStart current s.srCur.toNat) :
    displayEvents (srStep s).trace = block
      ++ frameStart (withBit current s.srCur.toNat (currentBit s)) (s.srCur.toNat + 1)
      ++ (if s.srCur.toNat < 15 then [] else latchEvents) := by
  rw [displayEvents_srStep, h, frameStart_withBit _ _ s.srCur.isLt]
  simp only [List.append_assoc]

/-- Below bit 15 the active frame has one bit more on the wire; bit 15 makes it the last of the latched ones. -/
theorem WireShows.srStep {accepted : List Frame} {s : State} (ha : s.srActive = true) (hw : WireShows accepted s) :
    WireShows accepted (srStep s) := by
  obtain ⟨latched, sent, current, haccepted, hsent, htrace, hcurrent⟩ := hw
  have hagrees := bitAgrees_withBit_currentBit (hcurrent ha)
  have hevents := displayEvents_srStep_of_frameStart htrace
  by_cases hk : s.srCur.toNat < 15
  · rw [if_pos hk, List.append_nil, ← srStep_mid_srCur hk] at hevents
    rw [← srStep_mid_srCur hk] at hagrees
    rw [srStep_mid s hk] at hevents hagrees ⊢
    exact ⟨latched, sent, withBit current s.srCur.toNat (currentBit s), haccepted, hsent, hevents, fun _ => hagrees⟩
  · obtain ⟨hpending, hcur⟩ := srStep_last_frames ha hk
    have hlast : s.srCur.toNat + 1 = 16 := by omega
    rw [if_neg hk, hlast, List.append_assoc] at hevents
    rw [hlast] at hagrees
    have hsentAs : SentAs { u := s.srU, t := s.srT } (withBit current s.srCur.toNat (currentBit s)) := hagrees
    refine ⟨_, _, 0, ?_, List.rel_append hsent (.cons hsentAs .nil), ?_, ?_⟩
    · rw [haccepted, hpending, List.append_assoc]
      rfl
    · rw [hevents, hcur, List.flatMap_append, List.flatMap_singleton]
      simp [frameEvents, frameStart]
    · simp [hcur]

/-- Settles O31: a move shows nothing new, or adds a frame behind the pending ones, or sends the active frame's next bit. -/
theorem framesLatchInOrderUninterleaved : Obligations.FramesLatchInOrderUninterleaved := by
  intro accepted s t hi hw hr h
  have hw' := (SameWire.of_consumeAction s).wireShows hw
  rcases (step_moves s t hr h).wire with ⟨hnone, hsame⟩ | ⟨f, hone, rfl⟩ | ⟨hnone, ha, rfl⟩
  · rw [hnone, List.append_nil]
    exact hsame.wireShows hw'
  · rw [hone]
    exact hw'.acceptFrame hi.consumeAction f
  · rw [hnone, List.append_nil]
    exact hw'.srStep ha

end Sys2Proof.Machine

namespace Sys2Proof.Machine

/-! ## Pacing (R143, R144, R220) -/

/-- A step left armed by an SR_STEP, of the same frame or the next, is due `BIT_DELAY` from then (R137, R144). -/
theorem srStep_srDue (s : State) (h : (srStep s).srActive = true) : (srStep s).srDue = s.now + Config.bitDelay := by
  by_cases hk : s.srCur.toNat < 15
  · rw [srStep_mid s hk]
    rfl
  · rw [srStep_last s hk] at h ⊢
    cases hq : s.fq with
    | nil =>
      rw [nextFrame_nil (pulse .srLatch (shiftOut _ s)) hq] at h
      cases h
    | cons f rest =>
      rw [nextFrame_cons (pulse .srLatch (shiftOut _ s)) f rest hq]
      rfl

/-- What a move does to the armed step: it leaves it as it was, or what it leaves armed is due `BIT_DELAY` from then. -/
theorem Moves.due {a : Action} {s t : State} (h : Moves a s t) :
    (t.srActive = s.srActive ∧ t.srDue = s.srDue) ∨ (t.srActive = true → t.srDue = s.now + Config.bitDelay) := by
  cases h with
  | fire => exact .inr (srStep_srDue s)
  | accept w u v =>
    cases ha : s.srActive with
    | true => rw [acceptFrame_busy s _ v ha]; exact .inl ⟨ha, rfl⟩
    | false => rw [acceptFrame_idle s _ v ha]; exact .inr fun _ => rfl
  | sample w ch => exact .inl ⟨(adcConversation_only s ch).srActive, (adcConversation_only s ch).srDue⟩
  | read | noEffect | reject | range | patfor | overrun | setdark | pass | time => exact .inl ⟨rfl, rfl⟩

/-- No SR_STEP is due before `b`, and none that is armed from now on will be. -/
structure NoneDueBefore (b : Nat) (s : State) : Prop where
  due : s.srActive = true → b ≤ s.srDue
  now : b ≤ s.now + Config.bitDelay

theorem NoneDueBefore.moves {b : Nat} {a : Action} {s t : State} (h : Moves a s t) (hb : NoneDueBefore b s) :
    NoneDueBefore b t := by
  have hnow : s.now ≤ t.now := h.now ▸ Nat.le_add_right _ _
  have hb_now := hb.now
  refine ⟨fun ha => ?_, by omega⟩
  rcases h.due with ⟨hactive, hdue⟩ | harmed
  · exact hdue ▸ hb.due (hactive ▸ ha)
  · exact harmed ha ▸ hb_now

/-- What every move keeps, every list of actions without a reset keeps. -/
theorem runActions_keeps {P : State → Prop} (hP : ∀ {a : Action} {s t : State}, Moves a s t → P s → P t) :
    ∀ {acts : List Action} {s t : State}, (∀ m, Action.reset m ∉ acts) → runActions acts s = .next t → P s → P t := by
  intro acts
  induction acts with
  | nil => intro s t _ h hs; cases h; exact hs
  | cons a acts ih =>
    intro s t hr h hs
    simp only [runActions] at h
    cases hx : runAction a s with
    | fault r => rw [hx] at h; cases h
    | refused r => rw [hx] at h; cases h
    | next x =>
      rw [hx] at h
      rcases runAction_moves s x a hx with ⟨m, rfl, -⟩ | hm
      · exact absurd List.mem_cons_self (hr m)
      · exact ih (fun m hmem => hr m (List.mem_cons_of_mem a hmem)) h (hP hm hs)

/-- Settles O34: the step that arms leaves none due before `BIT_DELAY` from then, and every move keeps that. -/
theorem stepsArePaced : Obligations.StepsArePaced := by
  intro s x t acts hr hstart hrun he
  have hx : NoneDueBefore (s.now + Config.bitDelay) x := by
    rcases hstart with ⟨hfire, hstep⟩ | ⟨ha, u, v, hexec⟩
    · rw [runAction_seq_enabled s hfire] at hstep
      cases hstep
      exact ⟨fun h => (srStep_srDue s h).ge, by rw [(srStep_only s).now]⟩
    · rw [exec_display_idle s u v ha] at hexec
      cases hexec
      exact ⟨fun _ => le_rfl, le_rfl⟩
  have ht : NoneDueBefore (s.now + Config.bitDelay) t := runActions_keeps NoneDueBefore.moves hr hrun hx
  obtain ⟨ha, -, hdue⟩ := (srEnabled_iff t).1 he
  exact (ht.due ha).trans hdue

end Sys2Proof.Machine

/-! ## SETDARK (spec/44_dark_flag.md) -/

namespace Sys2Proof.Machine

/-- STATUS[1] is DARK in every state (R28); unlike `statusView_eq` it needs no bound on the queue. -/
theorem statusView_getLsbD_one (s : State) : (statusView s).getLsbD 1 = s.dark := by
  simp only [statusView, BitVec.getLsbD_append, BitVec.getLsbD_ofBool]
  simp

/-- SETDARK is the write of DARK and nothing more (R160, R163). -/
theorem exec_setdark (s : State) (d : Level) : exec (.setdark d) s = .next (writeDark d s) := rfl

/-- Settles O22: SETDARK is `writeDark`, an update of the one field STATUS[1] shows. -/
theorem setdarkNextState : Obligations.SetdarkNextState := by
  intro s d
  have hstatus : (statusView (writeDark d s)).getLsbD 1 = d := by
    rw [statusView_getLsbD_one, writeDark_dark]
  exact ⟨writeDark d s, exec_setdark s d, rfl, hstatus⟩

end Sys2Proof.Machine

/-! ## Fair runs (spec/45_host_sequences.md R180 to R182) -/

namespace Sys2Proof.Machine

/-! ### What a move does to an armed step -/

/-- The step armed in `s` is still armed in `t`, for the same bit and the same time. -/
structure KeepsArmedStep (s t : State) : Prop where
  srActive : t.srActive = s.srActive
  srCur : t.srCur = s.srCur
  srDue : t.srDue = s.srDue

theorem KeepsArmedStep.trans {s t u : State} (h : KeepsArmedStep s t) (h' : KeepsArmedStep t u) : KeepsArmedStep s u :=
  ⟨h'.srActive.trans h.srActive, h'.srCur.trans h.srCur, h'.srDue.trans h.srDue⟩

/-- The inversion lemma of an active engine: a move fires its armed step or leaves it armed. -/
theorem Moves.fires_or_keeps {a : Action} {s t : State} (h : Moves a s t) (ha : s.srActive = true) :
    (a = .seq ∧ srEnabled s = true ∧ t = srStep s) ∨ KeepsArmedStep s t := by
  cases h with
  | fire he => exact .inl ⟨rfl, he, rfl⟩
  | accept w u v =>
    rw [acceptFrame_busy s _ v ha]
    exact .inr ⟨rfl, rfl, rfl⟩
  | sample w ch =>
    have honly := adcConversation_only s ch
    exact .inr ⟨honly.srActive, honly.srCur, honly.srDue⟩
  | read | noEffect | reject | range | patfor | overrun | setdark | pass | time => exact .inr ⟨rfl, rfl, rfl⟩

theorem srStep_mid_srActive {s : State} (h : s.srCur.toNat < 15) : (srStep s).srActive = s.srActive := by
  rw [srStep_mid s h]
  rfl

/-- An SR_STEP leaves no more frames to send than there were, and bit 15 leaves one less. -/
theorem pendingFrames_srStep_length {s : State} (ha : s.srActive = true) :
    (pendingFrames (srStep s)).length + (if s.srCur.toNat < 15 then 0 else 1) = (pendingFrames s).length := by
  by_cases hk : s.srCur.toNat < 15
  · rw [if_pos hk, srStep_mid s hk]
    rfl
  · rw [if_neg hk, (srStep_last_frames ha hk).1, List.length_cons]

/-- Only an accepted frame adds to the frames to be sent. -/
theorem Moves.pendingFrames_length_le {a : Action} {s t : State} (h : Moves a s t) (hnone : acceptedBy a s = []) :
    (pendingFrames t).length ≤ (pendingFrames s).length := by
  rcases h.wire with ⟨-, hsame⟩ | ⟨f, hone, -⟩ | ⟨-, ha, rfl⟩
  · rw [hsame.pendingFrames]
  · rw [hnone] at hone
    cases hone
  · have hlength := pendingFrames_srStep_length ha
    omega

/-- Only the host hands over a frame (R131). -/
theorem acceptedBy_seq_or_time {a : Action} (s : State) (h : a = .seq ∨ a = .time) : acceptedBy a s = [] := by
  rcases h with rfl | rfl <;> rfl

/-- SEQ and TIME raise no fault (R137, R222). -/
theorem Moves.faulted_of_seq_or_time {a : Action} {s t : State} (h : Moves a s t) (ha : a = .seq ∨ a = .time) :
    t.faulted = s.faulted := by
  cases h with
  | fire => exact (srStep_only s).faulted
  | pass | time => rfl
  | read | noEffect | reject | range | sample | patfor | overrun | accept | setdark => simp at ha

/-! ### Fair runs with no reset and no fault -/

/-- A fair run (R181) in which, from step `n` on, there is no reset and no fault. -/
structure FairFrom (sched : Nat → Action) (σ : Nat → State) (n : Nat) : Prop where
  run : IsRun sched σ
  fair : Fair sched σ
  noReset : ∀ m k, n ≤ m → sched m ≠ .reset k
  faultFree : ∀ m, n ≤ m → (σ m).faulted = false

/-- Step `m` is an enabled SR_STEP. -/
def FiresAt (sched : Nat → Action) (σ : Nat → State) (m : Nat) : Prop :=
  sched m = .seq ∧ srEnabled (σ m) = true

section

variable {sched : Nat → Action} {σ : Nat → State} {n m : Nat}

/-- A step of a run that is no reset is a move. -/
theorem IsRun.moves (hrun : IsRun sched σ) (hreset : ∀ k, sched m ≠ .reset k) :
    Moves (sched m) (σ m) (σ (m + 1)) := by
  rcases runAction_moves (σ m) (σ (m + 1)) (sched m) (hrun m) with ⟨k, hk, -⟩ | hmove
  · exact absurd hk (hreset k)
  · exact hmove

theorem IsRun.succ_of_firesAt (hrun : IsRun sched σ) (hfire : FiresAt sched σ m) : σ (m + 1) = srStep (σ m) := by
  have hstep := hrun m
  rw [hfire.1, runAction_seq_enabled (σ m) hfire.2] at hstep
  exact (Host.Outcome.next.inj hstep).symm

namespace FairFrom

theorem mono (h : FairFrom sched σ n) (hm : n ≤ m) : FairFrom sched σ m :=
  { h with
    noReset := fun i k hi => h.noReset i k (hm.trans hi)
    faultFree := fun i hi => h.faultFree i (hm.trans hi) }

theorem moves (h : FairFrom sched σ n) (hm : n ≤ m) : Moves (sched m) (σ m) (σ (m + 1)) :=
  h.run.moves fun k => h.noReset m k hm

theorem now_le (h : FairFrom sched σ n) (hm : n ≤ m) : (σ n).now ≤ (σ m).now := by
  induction m, hm using Nat.le_induction with
  | base => exact le_rfl
  | succ m hm ih =>
    rw [(h.moves hm).now]
    exact Nat.le_add_right_of_le ih

/-- TIME never stops (R181), so NOW reaches every value. -/
theorem exists_now_ge (h : FairFrom sched σ n) (d : Nat) : ∃ m, n ≤ m ∧ d ≤ (σ m).now := by
  induction d with
  | zero => exact ⟨n, le_rfl, Nat.zero_le _⟩
  | succ d ih =>
    obtain ⟨m, hm, hd⟩ := ih
    obtain ⟨k, hk, htime⟩ := h.fair.1 m
    have hle := (h.mono hm).now_le hk
    have hsucc := (h.moves (hm.trans hk)).now
    rw [if_pos htime] at hsucc
    exact ⟨k + 1, by omega, by omega⟩

/-- An armed step fires: were it never to fire, it would stay armed until NOW passes SR_DUE and stay enabled from then on,
and fairness fires a step that stays enabled (R181, R221). -/
theorem exists_firesAt (h : FairFrom sched σ n) (ha : (σ n).srActive = true) :
    ∃ m, n ≤ m ∧ FiresAt sched σ m ∧ KeepsArmedStep (σ n) (σ m) := by
  by_contra hnever
  have hkeeps : ∀ m, n ≤ m → KeepsArmedStep (σ n) (σ m) := by
    intro m hm
    induction m, hm using Nat.le_induction with
    | base => exact ⟨rfl, rfl, rfl⟩
    | succ m hm ih =>
      rcases (h.moves hm).fires_or_keeps (ih.srActive.trans ha) with ⟨hseq, he, -⟩ | hkeep
      · exact absurd ⟨m, hm, ⟨hseq, he⟩, ih⟩ hnever
      · exact ih.trans hkeep
  obtain ⟨d, hd, hdue⟩ := h.exists_now_ge (σ n).srDue
  have henabled : ∀ m, d ≤ m → srEnabled (σ m) = true := by
    intro m hm
    have hkeep := hkeeps m (hd.trans hm)
    have hnow := (h.mono hd).now_le hm
    rw [srEnabled_iff, hkeep.srActive, hkeep.srDue]
    exact ⟨ha, h.faultFree m (hd.trans hm), hdue.trans hnow⟩
  obtain ⟨m, hm, hseq⟩ := h.fair.2 d henabled
  exact hnever ⟨m, hd.trans hm, ⟨hseq, henabled m hm⟩, hkeeps m (hd.trans hm)⟩

/-- With `j` bits before bit 15 the frame is latched: the armed step fires, and leaves one bit less. -/
theorem exists_latch_of_bitsLeft (j : Nat) : ∀ {n : Nat}, FairFrom sched σ n → (σ n).srActive = true →
    (σ n).srCur.toNat + j = 15 → ∃ m, n ≤ m ∧ FiresAt sched σ m ∧ (σ m).srCur = 15#4 := by
  induction j with
  | zero =>
    intro n h ha hj
    obtain ⟨m, hm, hfire, hkeep⟩ := h.exists_firesAt ha
    exact ⟨m, hm, hfire, hkeep.srCur.trans (BitVec.eq_of_toNat_eq hj)⟩
  | succ j ih =>
    intro n h ha hj
    obtain ⟨m, hm, hfire, hkeep⟩ := h.exists_firesAt ha
    have hnext := h.run.succ_of_firesAt hfire
    have hmid : (σ m).srCur.toNat < 15 := by rw [hkeep.srCur]; omega
    have hactive : (σ (m + 1)).srActive = true := by
      rw [hnext, srStep_mid_srActive hmid, hkeep.srActive, ha]
    have hleft : (σ (m + 1)).srCur.toNat + j = 15 := by
      rw [hnext, srStep_mid_srCur hmid, hkeep.srCur]; omega
    obtain ⟨k, hk, hlatch⟩ := ih (h.mono (by omega)) hactive hleft
    exact ⟨k, by omega, hlatch⟩

theorem exists_latch (h : FairFrom sched σ n) (ha : (σ n).srActive = true) :
    ∃ m, n ≤ m ∧ FiresAt sched σ m ∧ (σ m).srCur = 15#4 :=
  exists_latch_of_bitsLeft (15 - (σ n).srCur.toNat) h ha (by omega)

end FairFrom

/-! ### A host that has finished (R180) -/

namespace HostDone

theorem mono (hdone : HostDone sched n) (hm : n ≤ m) : HostDone sched m :=
  fun k hk => hdone k (hm.trans hk)

theorem noReset (hdone : HostDone sched n) (hm : n ≤ m) (k : BitVec 7) : sched m ≠ .reset k := by
  rcases hdone m hm with h | h <;> simp [h]

/-- With the host done no fault can come, for only commands and resets raise one (R205). -/
theorem fairFrom (hdone : HostDone sched n) (hrun : IsRun sched σ) (hfair : Fair sched σ)
    (hf : (σ n).faulted = false) : FairFrom sched σ n := by
  refine ⟨hrun, hfair, fun m k hm => hdone.noReset hm k, fun m hm => ?_⟩
  induction m, hm using Nat.le_induction with
  | base => exact hf
  | succ m hm ih => exact ((hrun.moves (hdone.noReset hm)).faulted_of_seq_or_time (hdone m hm)).trans ih

/-- With the host done no frame is added to those to be sent. -/
theorem pendingFrames_length_le (hdone : HostDone sched n) (hrun : IsRun sched σ) (hm : n ≤ m) :
    (pendingFrames (σ m)).length ≤ (pendingFrames (σ n)).length := by
  induction m, hm using Nat.le_induction with
  | base => exact le_rfl
  | succ m hm ih =>
    have hnone := acceptedBy_seq_or_time (σ m) (hdone m hm)
    exact ((hrun.moves (hdone.noReset hm)).pendingFrames_length_le hnone).trans ih

/-- The frames to be sent run out: the active one is latched, and that leaves one less. -/
theorem exists_idle (j : Nat) : ∀ {n : Nat}, HostDone sched n → FairFrom sched σ n →
    (pendingFrames (σ n)).length ≤ j → ∃ m, n ≤ m ∧ (σ m).srActive = false := by
  induction j with
  | zero =>
    intro n _ _ hj
    refine ⟨n, le_rfl, Bool.eq_false_iff.2 fun ha => ?_⟩
    simp [pendingFrames, ha] at hj
  | succ j ih =>
    intro n hdone h hj
    cases ha : (σ n).srActive with
    | false => exact ⟨n, le_rfl, ha⟩
    | true =>
      obtain ⟨m, hm, hfire, hlast⟩ := h.exists_latch ha
      have hless := pendingFrames_srStep_length ((srEnabled_iff (σ m)).1 hfire.2).1
      rw [← h.run.succ_of_firesAt hfire, hlast, if_neg (by decide)] at hless
      have hle := hdone.pendingFrames_length_le h.run hm
      have hm' : n ≤ m + 1 := by omega
      obtain ⟨k, hk, hidle⟩ := ih (hdone.mono hm') (h.mono hm') (by omega)
      exact ⟨k, hm'.trans hk, hidle⟩

end HostDone

end

/-- Settles O35: each armed step fires by fairness, and the cursor then moves on until bit 15's fires. -/
theorem activeFrameIsEventuallyLatched : Obligations.ActiveFrameIsEventuallyLatched := by
  intro sched σ n hrun hfair hreset hf ha
  obtain ⟨m, hm, ⟨hseq, he⟩, hlast⟩ := FairFrom.exists_latch ⟨hrun, hfair, hreset, hf⟩ ha
  exact ⟨m, hm, hseq, he, hlast⟩

/-- Settles O36: with no frame added, each latch leaves one frame less to send, until the engine is idle. -/
theorem finishedHostReachesFinalState : Obligations.FinishedHostReachesFinalState := by
  intro sched σ n hrun hfair hdone hf
  have h := hdone.fairFrom hrun hfair hf
  obtain ⟨m, hm, hidle⟩ := hdone.exists_idle (pendingFrames (σ n)).length h le_rfl
  exact ⟨m, hm, h.faultFree m hm, hidle⟩

end Sys2Proof.Machine

/-! ## Faults and the internal agents (spec/60_exceptions.md) -/

namespace Sys2Proof.Machine

/-! ### A command that faults (R200, R205) -/

/-- A command's fault has one of the codes 1 to 4: code 5 is the reset's (R200). -/
theorem causeCode_of_ne_config {c : Cause} (h : c ≠ .config) :
    (causeCode c).zeroExtend 32 = 1#32 ∨ (causeCode c).zeroExtend 32 = 2#32
      ∨ (causeCode c).zeroExtend 32 = 3#32 ∨ (causeCode c).zeroExtend 32 = 4#32 := by
  cases c with
  | illegalOp | reservedBits | operandRange | frameOverrun => decide
  | config => exact absurd rfl h

/-- Only a reset raises E_CONFIG (R233). -/
theorem decodeCause_ne_config (e : DecodeError) : decodeCause e ≠ .config := by
  cases e <;> decide

/-- A CMD write that leaves FAULTED = 1 ends in the fault path on the state before it, with the word written as FINFO. -/
theorem Moves.cmdWrite_faults {w : Word} {s t : State} (h : Moves (.host (.write 0x00 32 w)) s t)
    (hs : s.faulted = false) (ht : t.faulted = true) : ∃ c, c ≠ .config ∧ t = raiseFault c w s := by
  cases h with
  | reject _ e => exact ⟨_, decodeCause_ne_config e, rfl⟩
  | range _ i _ hd =>
    rw [decodedWordIsItsEncoding w i hd]
    exact ⟨_, by decide, rfl⟩
  | overrun _ u v _ hd =>
    rw [decodedWordIsItsEncoding w _ hd]
    exact ⟨_, by decide, rfl⟩
  | sample _ ch => simp [(adcConversation_only s ch).faulted, hs] at ht
  | accept _ u v => simp [(acceptFrame_only s _ v).faulted, hs] at ht
  | noEffect | patfor | setdark => simp [hs] at ht

/-- Settles O38: every faulting CMD write goes through the fault path, which writes FAULTED, CAUSE and FINFO alone. -/
theorem faultsArePrecise : Obligations.FaultsArePrecise := by
  intro s t w hs hstep ht
  obtain ⟨c, hc, rfl⟩ := (cmdWrite_moves s t w hstep).cmdWrite_faults hs ht
  exact ⟨rfl, causeCode_of_ne_config hc⟩

/-! ### SEQ's and TIME's turns, FAULTED or not (R207, R221, R222) -/

theorem runAction_seq_disabled (s : State) (h : srEnabled s = false) : runAction .seq s = .next s := by
  rw [runAction, seqTurn, h, if_neg Bool.false_ne_true]

/-- Settles O27: the guard of SR_STEP is these three conditions, and SEQ's turn is under it. -/
theorem srStepOnlyWhenEnabled : Obligations.SrStepOnlyWhenEnabled := fun s =>
  ⟨srEnabled_iff s, runAction_seq_disabled s⟩

theorem runAction_time (s : State) : runAction .time s = .next (timeStep s) := rfl

/-- Settles O52: a TIME step has no guard. -/
theorem timeStepAlwaysEnabled : Obligations.TimeStepAlwaysEnabled := runAction_time

theorem srEnabled_of_faulted {s : State} (hf : s.faulted = true) : srEnabled s = false := by
  simp [srEnabled, armed, hf]

/-- Settles O39: FAULTED is read by the CMD port and by SR_STEP's guard, and by no read and no TIME step. -/
theorem faultedMachineIsHalted : Obligations.FaultedMachineIsHalted := by
  intro s hf
  have hdisabled := srEnabled_of_faulted hf
  have hread := runAction_read s
  exact ⟨fun w => cmdWrite_faulted s w hf, hread 0x04 (by decide) rfl, hread 0x08 (by decide) rfl,
    hread 0x0C (by decide) rfl, hread 0x10 (by decide) rfl, hdisabled, runAction_seq_disabled s hdisabled,
    runAction_time s⟩

end Sys2Proof.Machine
